-- ==== Sys2Proof/Word.lean ====
section
/-! DEFINITION. Values and operands: the two number domains of the machine.
The machine is decimal (00_scope.md R7): it has no bits, so nothing here is a bit vector (log 1). -/

namespace Sys2Proof

/-- A value: an integer in [0, 999]; every register other than the booleans, every memory cell and every
instruction word is one (R7, D1). The modulus `MOD` of R5 is the 1000 in this type. -/
abbrev Value := Fin 1000

/-- An operand: the low two digits of an instruction word, 0 to 99 (R81). `OPMOD` of R5 is the 100 in this type. -/
abbrev Operand := Fin 100

/-- The signed reading of a value (R9): 500 to 999 stand for -500 to -1. No instruction computes it. -/
def signed (v : Value) : Int := if v.val < 500 then v.val else (v.val : Int) - 1000

end Sys2Proof
end

