-- ==== Sys2Proof/Config.lean ====
section
/-! DEFINITION. What an implementation fixes: the operand numbers the spec leaves open and the default start
address (00_scope.md R6). VALUE_REPR and PORT_PROTOCOL are not observable by any rule and have no field. -/

namespace Sys2Proof

/-- The operand numbers of USEB, MUL and DIV within class 4 (R6: OPEN parameters, D2). -/
structure ExtOperands where
  /-- EXT_USEB -/
  useb : Operand
  /-- EXT_MUL -/
  mul : Operand
  /-- EXT_DIV -/
  div : Operand
  deriving DecidableEq, Repr

/-- R6: EXT_USEB, EXT_MUL and EXT_DIV must be pairwise distinct. -/
abbrev ExtOperands.distinct (c : ExtOperands) : Prop :=
  c.useb ≠ c.mul ∧ c.useb ≠ c.div ∧ c.mul ≠ c.div

/-- The defaults of R6, those of spec/opcode_table.json: the words 401, 402, 403. DESIGN CHOICE, unsafe (log 2). -/
def Config.extOperands : ExtOperands := ⟨1, 2, 3⟩

/-- START_ADDRESS when a start names none (R6: default 0). -/
def Config.startAddress : Int := 0

end Sys2Proof
end

