-- ==== Sys2Proof/Syntax.lean ====
section
/-! DEFINITION. The instructions: one constructor per row of spec/opcode_table.json (30_encoding.md R85). -/

namespace Sys2Proof

/-- The sixteen instruction rows of R85. An operand is a direct address, a branch target or a selector (R84). -/
inductive Instr where
  /-- HLT, word 000 (R120) -/
  | hlt
  /-- TRAP n, words 001 to 099 (R121) -/
  | trap (n : Operand)
  /-- ADD n, words 1nn (R130) -/
  | add (n : Operand)
  /-- SUB n, words 2nn (R131) -/
  | sub (n : Operand)
  /-- STA n, words 3nn (R140) -/
  | sta (n : Operand)
  /-- USEB, class 4 with operand EXT_USEB (R150) -/
  | useb
  /-- MUL, class 4 with operand EXT_MUL (R151) -/
  | mul
  /-- DIV, class 4 with operand EXT_DIV (R152) -/
  | div
  /-- EXT n, class 4 with every other operand (R153) -/
  | ext (n : Operand)
  /-- LDA n, words 5nn (R141) -/
  | lda (n : Operand)
  /-- BRA n, words 6nn (R160) -/
  | bra (n : Operand)
  /-- BRZ n, words 7nn (R161) -/
  | brz (n : Operand)
  /-- BRP n, words 8nn (R162) -/
  | brp (n : Operand)
  /-- INP, word 901 (R170) -/
  | inp
  /-- OUT, word 902 (R171) -/
  | out
  /-- UIO n, words 900 and 903 to 999 (R172) -/
  | uio (n : Operand)
  deriving DecidableEq, Repr

end Sys2Proof
end

