-- ==== Sys2Proof/WellFormed.lean ====
section
/-! DEFINITION. Which instruction terms stand for a word: the operand of an extension-point row is none of the
operands that select another row (30_encoding.md R83, R86). -/

namespace Sys2Proof

/-- Whether the term is one of R85's rows under the operand numbers `c`. -/
def Instr.wellFormed (c : ExtOperands) : Instr → Bool
  | .hlt | .useb | .mul | .div | .inp | .out => true
  | .add _ | .sub _ | .sta _ | .lda _ | .bra _ | .brz _ | .brp _ => true
  | .trap n => decide (n ≠ 0)
  | .ext n => decide (n ≠ c.useb ∧ n ≠ c.mul ∧ n ≠ c.div)
  | .uio n => decide (n ≠ 1 ∧ n ≠ 2)

end Sys2Proof
end

