-- ==== Sys2Proof/Decode.lean ====
section
/-! DEFINITION. Decoding a word and, after it, encoding an instruction (30_encoding.md R80 to R85). Both take the
class 4 operand numbers as an argument; the plain `decode` and `encode` use the defaults of R6. -/

namespace Sys2Proof

/-- The operator class: the hundreds digit, `v div 100` (R81). -/
def opClass (v : Value) : Fin 10 := ⟨v.val / 100, by omega⟩

/-- The operand: the low two digits, `v mod 100` (R81). -/
def operandOf (v : Value) : Operand := ⟨v.val % 100, by omega⟩

/-- Class 0 by operand (R83): 0 halts, every other is a trap number. -/
def decodeTrapHalt (n : Operand) : Instr := if n = 0 then .hlt else .trap n

/-- Class 4 by operand (R83): the three assigned numbers, and EXT for every other. -/
def decodeExtended (c : ExtOperands) (n : Operand) : Instr :=
  if n = c.useb then .useb
  else if n = c.mul then .mul
  else if n = c.div then .div
  else .ext n

/-- Class 9 by operand (R83): 1 is input, 2 is output, every other (0 too: 90_conflicts.md C1) is user I/O. -/
def decodeIO (n : Operand) : Instr :=
  if n = 1 then .inp
  else if n = 2 then .out
  else .uio n

/-- Decode, total on values (R81, R104): the row of R85 that class and operand select. -/
def decodeWith (c : ExtOperands) (v : Value) : Instr :=
  let n := operandOf v
  match opClass v with
  | 0 => decodeTrapHalt n
  | 1 => .add n
  | 2 => .sub n
  | 3 => .sta n
  | 4 => decodeExtended c n
  | 5 => .lda n
  | 6 => .bra n
  | 7 => .brz n
  | 8 => .brp n
  | 9 => decodeIO n

/-- Decode with the default operand numbers, those of spec/opcode_table.json. -/
def decode (v : Value) : Instr := decodeWith Config.extOperands v

/-- Why a number is no instruction word. -/
inductive DecodeReject where
  /-- The number is not in [0, 999], so no cell can hold it (R7). Safe: the machine never meets one. -/
  | notAValue (w : Nat)
  deriving DecidableEq, Repr

/-- Decode any number, rejecting by name what is no value. -/
def decodeNat (c : ExtOperands) (w : Nat) : Except DecodeReject Instr :=
  if h : w < 1000 then .ok (decodeWith c ⟨w, h⟩) else .error (.notAValue w)

/-- The host's word: the instruction the decoder reads from the word whose number is `w`. The word of this machine is
its decimal value, written in binary; the bits above `nbits` are 0 by the host's contract, so `nbits` says nothing
more (DESIGN CHOICE, safe: log 3). -/
def decodeTableWord (_nbits w : Nat) : Option Instr :=
  match decodeNat Config.extOperands w with
  | .ok i => some i
  | .error _ => none

/-- The word of class `op` and operand `n`: `100*op + n` (R81). -/
def wordOf (op : Fin 10) (n : Operand) : Value := ⟨100 * op.val + n.val, by omega⟩

/-- Encode: the word of a well-formed instruction, from the rows of R85 (R90's last paragraph). -/
def encodeWith (c : ExtOperands) : Instr → Value
  | .hlt => wordOf 0 0
  | .trap n => wordOf 0 n
  | .add n => wordOf 1 n
  | .sub n => wordOf 2 n
  | .sta n => wordOf 3 n
  | .useb => wordOf 4 c.useb
  | .mul => wordOf 4 c.mul
  | .div => wordOf 4 c.div
  | .ext n => wordOf 4 n
  | .lda n => wordOf 5 n
  | .bra n => wordOf 6 n
  | .brz n => wordOf 7 n
  | .brp n => wordOf 8 n
  | .inp => wordOf 9 1
  | .out => wordOf 9 2
  | .uio n => wordOf 9 n

/-- Encode with the default operand numbers. -/
def encode (i : Instr) : Value := encodeWith Config.extOperands i

end Sys2Proof
end

