-- ==== Sys2Proof/Machine/State.lean ====
section
/-! DEFINITION. The state of the core as plain data (10_state.md), with the spec's own names for its fields, and the
state after reset. -/

namespace Sys2Proof.Machine

/-- Run status (10_state.md R28). `halted` and `faulted` are absorbing. -/
inductive Status where
  | running
  | halted
  | faulted
  deriving DecidableEq, Repr

/-- The seven fault kinds (60_exceptions.md R180). -/
inductive FaultKind where
  | outOfRangeProgramCounter
  | unmappedMemory
  | unknownTrap
  | unknownExtendedInstruction
  | unknownIOInstruction
  | ioValueRange
  | divisionByZero
  deriving DecidableEq, Repr

/-- A fault record: the kind and the one integer it records (R29, R181). -/
structure FaultRecord where
  kind : FaultKind
  info : Int
  deriving DecidableEq, Repr

/-- The memory mapping (10_state.md R27): one pair per mapped cell, addresses strictly rising (`Memory.wf`); an
unlisted address is an unmapped cell. The unit is a cell that holds a value, not a byte (20_memory.md R51, log 1). -/
abbrev Memory := List (Nat × Value)

/-- Everything the spec gives the machine, and the two channels' contents (10_state.md R20 to R31). -/
structure State where
  /-- accumulator (R20) -/
  A : Value
  /-- auxiliary register (R21) -/
  B : Value
  /-- program counter, stored unreduced (R22, D16) -/
  pc : Int
  /-- zero flag (R23) -/
  Z : Bool
  /-- positive flag (R24) -/
  P : Bool
  /-- use-auxiliary flag (R25) -/
  U : Bool
  /-- halt flag (R26) -/
  H : Bool
  /-- memory (R27) -/
  mem : Memory
  /-- run status (R28) -/
  status : Status
  /-- fault record (R29) -/
  fault : Option FaultRecord
  /-- output sequence, oldest first (R30) -/
  out : List Value
  /-- the integers the input channel has still to deliver, next first (R31, log 5) -/
  inp : List Int
  deriving DecidableEq, Repr

/-- Why a step could end in the host's outcome `fault`. It has no constructor: each of the spec's seven faults has an
entry the spec describes (R183), so it is a next state with status `faulted` and a fault record, and a machine that
is not running keeps its state (log 7, log 8). Safe. -/
inductive Fault where
  deriving DecidableEq, Repr

/-- Why a step could be refused. -/
inductive Refusal where
  /-- Raised by an arm of `exec` for an instruction without a meaning. No arm raises it in this model. Safe. -/
  | notModelled (mnemonic : String)
  deriving DecidableEq, Repr

/-- The state right after the start of a run with START_ADDRESS at its default, every field as 10_state.md R34 says.
Memory is what the loader supplies, here nothing (log 4); no integer is offered to the input (DESIGN CHOICE, log 5). -/
def State.reset : State where
  A := 0
  B := 0
  pc := Config.startAddress
  Z := false
  P := false
  U := false
  H := false
  mem := []
  status := .running
  fault := none
  out := []
  inp := []

end Sys2Proof.Machine
end

