-- ==== Sys2Proof/Machine/Ops.lean ====
section
/-! DEFINITION. The named operations over memory, channels and the fault record: the primitives of 00_scope.md R10. -/

namespace Sys2Proof.Machine

/-- Truncation (R8): the remainder modulo 1000 that lies in [0, 999], of any integer. -/
def trunc (n : Int) : Value := ⟨(n % 1000).toNat, by omega⟩

/-- The content of the cell at `a`, `none` when it is unmapped (10_state.md R27). -/
def Memory.read : Memory → Nat → Option Value
  | [], _ => none
  | (b, v) :: rest, a => if a = b then some v else Memory.read rest a

/-- Map the cell at `a` to `v`, keeping the addresses in rising order (20_memory.md R55). -/
def Memory.write : Memory → Nat → Value → Memory
  | [], a, v => [(a, v)]
  | (b, u) :: rest, a, v =>
    if a < b then (a, v) :: (b, u) :: rest
    else if a = b then (a, v) :: rest
    else (b, u) :: Memory.write rest a v

/-- The canonical form: addresses strictly rising, all below 1000 (20_memory.md R50). A listed cell is a mapped one, so
no entry equals what an unlisted address reads as. -/
abbrev Memory.wf (m : Memory) : Prop :=
  m.Pairwise (fun c d => c.1 < d.1) ∧ ∀ c ∈ m, c.1 < 1000

/-- `MemRead(a)` (R10): the value of the cell, or the fault to raise when it is unmapped (20_memory.md R55). -/
def State.memRead (s : State) (a : Nat) : Except FaultRecord Value :=
  match s.mem.read a with
  | some v => .ok v
  | none => .error ⟨.unmappedMemory, a⟩

/-- `MemWrite(a, v)` (R10): never raises; the cell becomes mapped. -/
def State.memWrite (s : State) (a : Nat) (v : Value) : State :=
  { s with mem := s.mem.write a v }

/-- `In()` (R10, 20_memory.md R64): the next integer, consumed from the front, or `none` while the channel has none. -/
def State.takeInput (s : State) : Option (Int × State) :=
  match s.inp with
  | [] => none
  | x :: rest => some (x, { s with inp := rest })

/-- `Out(v)` (R10, 20_memory.md R65): append to the output sequence; never blocks or fails (D10, log 13). -/
def State.emit (s : State) (v : Value) : State :=
  { s with out := s.out ++ [v] }

/-- Fault entry, the one shared operation (60_exceptions.md R183): the record and the status are written and nothing
else. There is no vector, no saved register and no return (R183, R188), so no operation stands beside it. -/
def State.raise (s : State) (f : FaultRecord) : State :=
  { s with status := .faulted, fault := some f }

/-- The numeric code of a fault kind (60_exceptions.md R180, D4). -/
def FaultKind.code : FaultKind → Nat
  | .outOfRangeProgramCounter => 1
  | .unmappedMemory => 2
  | .unknownTrap => 3
  | .unknownExtendedInstruction => 4
  | .unknownIOInstruction => 5
  | .ioValueRange => 6
  | .divisionByZero => 7

end Sys2Proof.Machine
end

