-- ==== Sys2Proof/Machine/Flags.lean ====
section
/-! DEFINITION. The one flag computation of the machine (40_cycle_engine.md R110). -/

namespace Sys2Proof.Machine

/-- The zero flag of a value: `v == 0` (R110). -/
def zeroFlag (v : Value) : Bool := decide (v.val = 0)

/-- The positive flag of a value: `v < 500`, true for zero (R110, 10_state.md R24). -/
def positiveFlag (v : Value) : Bool := decide (v.val < 500)

/-- `SetFlags(v)` (R110): both flags are written together. -/
def State.setFlags (s : State) (v : Value) : State :=
  { s with Z := zeroFlag v, P := positiveFlag v }

end Sys2Proof.Machine
end

