-- ==== Sys2Proof/Machine/Operands.lean ====
section
/-! DEFINITION. How an instruction gets its operands and where its result goes: the working register
(40_cycle_engine.md R105, R108) and the one addressing mode (30_encoding.md R84). -/

namespace Sys2Proof.Machine

/-- Select (R105): the working value is `B` when `U` is set and `A` otherwise. -/
def State.workingValue (s : State) : Value := if s.U then s.B else s.A

/-- Write-back (R108). `sel` is `U` as it was at the select step; `isUseb` says the instruction is USEB, whose result
goes to `A` and which does not clear `U`. -/
def State.writeBack (s : State) (sel isUseb : Bool) (r : Value) : State :=
  if sel && !isUseb then { s with B := r, U := false } else { s with A := r }

/-- The effective address of ADD, SUB, STA, LDA: the operand itself (R84, direct addressing only). -/
def operandAddress (n : Operand) : Nat := n.val

/-- The target of BRA, BRZ, BRP: the operand itself (R84). -/
def branchTarget (n : Operand) : Int := n.val

/-- The integer a selector operand is recorded as by a fault (60_exceptions.md R181). -/
def selectorInfo (n : Operand) : Int := n.val

end Sys2Proof.Machine
end

