-- ==== Sys2Proof/Machine/Cycle.lean ====
section
/-! DEFINITION. The steps of a cycle that every instruction shares (40_cycle_engine.md R101 to R108, R112). An
instruction's own part is its Execute step, a function to `Effect`; `cycle` puts the common steps around it. -/

namespace Sys2Proof.Machine

/-- How an Execute step ends (R106, R107): with a result and the state it leaves, with a `raise`, or, for INP while the
channel offers nothing, not yet. -/
inductive Effect where
  | result (r : Value) (s : State)
  | raised (f : FaultRecord) (s : State)
  | waits
  deriving DecidableEq, Repr

/-- Lines 0 and 1 of R112: the program-counter check (R101), then the fetch read (R102). -/
def fetch (s : State) : Except FaultRecord Value :=
  if s.pc < 0 ∨ s.pc > 999 then .error ⟨.outOfRangeProgramCounter, s.pc⟩
  else match s.mem.read s.pc.toNat with
    | some v => .ok v
    | none => .error ⟨.unmappedMemory, s.pc⟩

/-- Line 2 of R112: the advance, modulo 1000 (R103). -/
def State.advance (s : State) : State := { s with pc := (s.pc + 1) % 1000 }

/-- Line 7 of R112: a set halt flag makes the status Halted. -/
def State.settleHalt (s : State) : State := if s.H then { s with status := .halted } else s

/-- Lines 2 and 4 to 7 of R112 around the Execute step `body`, which gets the working value and the advanced state.
A `raise` ends the cycle where it stands (R183). While INP waits the state is the one before the cycle (log 6). -/
def cycle (isUseb : Bool) (body : Value → State → Effect) (s : State) : Host.Outcome State Fault Refusal :=
  match body s.advance.workingValue s.advance with
  | .result r t => .next (t.writeBack s.U isUseb r).settleHalt
  | .raised f t => .next (t.raise f)
  | .waits => .next s

/-- Execute's ending for the instructions that write the flags (R111): `SetFlags(r)`, then the result `r`. -/
def flagged (r : Value) (s : State) : Effect := .result r (s.setFlags r)

/-- An operand read (R10, R55): go on with the cell's value, or raise. -/
def withOperand (n : Operand) (s : State) (k : Value → Effect) : Effect :=
  match s.memRead (operandAddress n) with
  | .ok m => k m
  | .error f => .raised f s

end Sys2Proof.Machine
end

