-- ==== Sys2Proof/Machine/Arithmetic.lean ====
section
/-! DEFINITION. Classes 1 and 2: ADD and SUB (42_arithmetic.md). Exact integer arithmetic, then `trunc` (R109). -/

namespace Sys2Proof.Machine

/-- R130, Execute: `m <- MemRead(n); r <- trunc(w + m); SetFlags(r)`. -/
def executeAdd (n : Operand) (w : Value) (s : State) : Effect :=
  withOperand n s fun m => flagged (trunc ((w.val : Int) + m.val)) s

/-- R131, Execute: `m <- MemRead(n); r <- trunc(w - m); SetFlags(r)`. -/
def executeSub (n : Operand) (w : Value) (s : State) : Effect :=
  withOperand n s fun m => flagged (trunc ((w.val : Int) - m.val)) s

/-- ADD n (R130). -/
def execAdd (n : Operand) (s : State) : Host.Outcome State Fault Refusal := cycle false (executeAdd n) s

/-- SUB n (R131). -/
def execSub (n : Operand) (s : State) : Host.Outcome State Fault Refusal := cycle false (executeSub n) s

end Sys2Proof.Machine
end

