-- ==== Sys2Proof/Machine/Branch.lean ====
section
/-! DEFINITION. Classes 6, 7, 8: BRA, BRZ, BRP (45_branch.md). The counter was advanced before, so a branch not taken
leaves the advanced value; a branch writes back `w` and so consumes `U` (D25, log 12). -/

namespace Sys2Proof.Machine

/-- R160, Execute: `pc <- n`, `r = w`. -/
def executeBra (n : Operand) (w : Value) (s : State) : Effect :=
  .result w { s with pc := branchTarget n }

/-- R161, Execute: `if Z: pc <- n`, `r = w`. -/
def executeBrz (n : Operand) (w : Value) (s : State) : Effect :=
  .result w (if s.Z then { s with pc := branchTarget n } else s)

/-- R162, Execute: `if P: pc <- n`, `r = w`. -/
def executeBrp (n : Operand) (w : Value) (s : State) : Effect :=
  .result w (if s.P then { s with pc := branchTarget n } else s)

/-- BRA n (R160). -/
def execBra (n : Operand) (s : State) : Host.Outcome State Fault Refusal := cycle false (executeBra n) s

/-- BRZ n (R161). -/
def execBrz (n : Operand) (s : State) : Host.Outcome State Fault Refusal := cycle false (executeBrz n) s

/-- BRP n (R162). -/
def execBrp (n : Operand) (s : State) : Host.Outcome State Fault Refusal := cycle false (executeBrp n) s

end Sys2Proof.Machine
end

