-- ==== Sys2Proof/Machine/Extended.lean ====
section
/-! DEFINITION. Class 4: USEB, MUL, DIV and EXT (44_extended.md). -/

namespace Sys2Proof.Machine

/-- R150, Execute: `U <- true`, `r = w`. -/
def executeUseb (w : Value) (s : State) : Effect := .result w { s with U := true }

/-- R151, Execute: `r <- trunc(B * w); SetFlags(r)`. -/
def executeMul (w : Value) (s : State) : Effect :=
  flagged (trunc ((s.B.val : Int) * w.val)) s

/-- R152, Execute: a zero divisor raises; otherwise `r <- trunc(B div w); SetFlags(r)`. The quotient is the floor
quotient of the raw values (D3, log 10). -/
def executeDiv (w : Value) (s : State) : Effect :=
  if w.val = 0 then .raised ⟨.divisionByZero, 0⟩ s
  else flagged (trunc ((s.B.val : Int) / w.val)) s

/-- R153, Execute: `raise UnknownExtendedInstruction(n)`. -/
def executeExt (n : Operand) (_w : Value) (s : State) : Effect :=
  .raised ⟨.unknownExtendedInstruction, selectorInfo n⟩ s

/-- USEB (R150): the one instruction whose write-back goes to `A` and leaves `U` set (R108; USEB after USEB: D20,
log 11). -/
def execUseb (s : State) : Host.Outcome State Fault Refusal := cycle true executeUseb s

/-- MUL (R151). -/
def execMul (s : State) : Host.Outcome State Fault Refusal := cycle false executeMul s

/-- DIV (R152). -/
def execDiv (s : State) : Host.Outcome State Fault Refusal := cycle false executeDiv s

/-- EXT n (R153): no further operator exists, every other operand faults (D23, log 15). -/
def execExt (n : Operand) (s : State) : Host.Outcome State Fault Refusal := cycle false (executeExt n) s

end Sys2Proof.Machine
end

