-- ==== Sys2Proof/Machine/InputOutput.lean ====
section
/-! DEFINITION. Class 9: INP, OUT and UIO (46_io.md). -/

namespace Sys2Proof.Machine

/-- R170, Execute: `x <- In()`, which waits while the channel offers nothing (D9, log 6); a delivered integer outside
[0, 999] raises, already consumed (D24, log 17); otherwise `r <- trunc(x); SetFlags(r)`. -/
def executeInp (_w : Value) (s : State) : Effect :=
  match s.takeInput with
  | none => .waits
  | some (x, t) => if x < 0 ∨ x > 999 then .raised ⟨.ioValueRange, x⟩ t else flagged (trunc x) t

/-- R171, Execute: `Out(w); SetFlags(w)`, `r = w`. -/
def executeOut (w : Value) (s : State) : Effect := flagged w (s.emit w)

/-- R172, Execute: `raise UnknownIOInstruction(n)`; no channel transaction. -/
def executeUio (n : Operand) (_w : Value) (s : State) : Effect :=
  .raised ⟨.unknownIOInstruction, selectorInfo n⟩ s

/-- INP (R170). -/
def execInp (s : State) : Host.Outcome State Fault Refusal := cycle false executeInp s

/-- OUT (R171). -/
def execOut (s : State) : Host.Outcome State Fault Refusal := cycle false executeOut s

/-- UIO n (R172): no handler is plugged in (D23, log 15). -/
def execUio (n : Operand) (s : State) : Host.Outcome State Fault Refusal := cycle false (executeUio n) s

end Sys2Proof.Machine
end

