-- ==== Sys2Proof/Machine/StoreLoad.lean ====
section
/-! DEFINITION. Classes 3 and 5: STA and LDA (43_store_load.md). -/

namespace Sys2Proof.Machine

/-- R140, Execute: `MemWrite(n, w); SetFlags(w)`, `r = w`. -/
def executeSta (n : Operand) (w : Value) (s : State) : Effect :=
  flagged w (s.memWrite (operandAddress n) w)

/-- R141, Execute: `r <- MemRead(n); SetFlags(r)`. -/
def executeLda (n : Operand) (_w : Value) (s : State) : Effect :=
  withOperand n s fun m => flagged m s

/-- STA n (R140). -/
def execSta (n : Operand) (s : State) : Host.Outcome State Fault Refusal := cycle false (executeSta n) s

/-- LDA n (R141). -/
def execLda (n : Operand) (s : State) : Host.Outcome State Fault Refusal := cycle false (executeLda n) s

end Sys2Proof.Machine
end

