-- ==== Sys2Proof/Machine/TrapHalt.lean ====
section
/-! DEFINITION. Class 0: HLT and TRAP (41_trap_halt.md). -/

namespace Sys2Proof.Machine

/-- R120, Execute: `H <- true`, `r = w`. -/
def executeHlt (w : Value) (s : State) : Effect := .result w { s with H := true }

/-- R121, Execute: `raise UnknownTrap(n)`. -/
def executeTrap (n : Operand) (_w : Value) (s : State) : Effect :=
  .raised ⟨.unknownTrap, selectorInfo n⟩ s

/-- HLT (R120). -/
def execHlt (s : State) : Host.Outcome State Fault Refusal := cycle false executeHlt s

/-- TRAP n (R121): no trap handler exists, every trap number faults (D23, log 15). -/
def execTrap (n : Operand) (s : State) : Host.Outcome State Fault Refusal := cycle false (executeTrap n) s

end Sys2Proof.Machine
end

