-- ==== Sys2Proof/Machine/Dispatch.lean ====
section
/-! DEFINITION. One arm per instruction: the cycle of a fetched and decoded instruction, from the advance on. -/

namespace Sys2Proof.Machine

def exec (i : Instr) (s : State) : Host.Outcome State Fault Refusal :=
  match i with
  | .hlt => Sys2Proof.Machine.execHlt s
  | .trap n => Sys2Proof.Machine.execTrap n s
  | .add n => Sys2Proof.Machine.execAdd n s
  | .sub n => Sys2Proof.Machine.execSub n s
  | .sta n => Sys2Proof.Machine.execSta n s
  | .useb => Sys2Proof.Machine.execUseb s
  | .mul => Sys2Proof.Machine.execMul s
  | .div => Sys2Proof.Machine.execDiv s
  | .ext n => Sys2Proof.Machine.execExt n s
  | .lda n => Sys2Proof.Machine.execLda n s
  | .bra n => Sys2Proof.Machine.execBra n s
  | .brz n => Sys2Proof.Machine.execBrz n s
  | .brp n => Sys2Proof.Machine.execBrp n s
  | .inp => Sys2Proof.Machine.execInp s
  | .out => Sys2Proof.Machine.execOut s
  | .uio n => Sys2Proof.Machine.execUio n s

end Sys2Proof.Machine
end

