-- ==== Sys2Proof/Machine/RunControl.lean ====
section
/-! DEFINITION. The core's interfaces to its environment as transactions (70_reset_and_hazards.md R200 to R203,
20_memory.md R64): start, the delivery of an input, and what the host may see. -/

namespace Sys2Proof.Machine

/-- The start transaction *start(mem0, START_ADDRESS)* (R200, R201), issued in any status `_s` (D22, log 14): a full
reset, memory as the host supplies it. `inputs` are the integers the input channel will deliver (10_state.md R37). -/
def State.start (_s : State) (mem0 : Memory) (startAddress : Int) (inputs : List Int) : State :=
  { State.reset with mem := mem0, pc := startAddress, inp := inputs }

/-- The input channel comes to offer one more integer, any integer (20_memory.md R64, D8). -/
def State.deliver (s : State) (x : Int) : State := { s with inp := s.inp ++ [x] }

/-- What the host may read of a halted core (R202). -/
structure HaltedView where
  A : Value
  B : Value
  pc : Int
  Z : Bool
  P : Bool
  U : Bool
  H : Bool
  mem : Memory
  deriving DecidableEq, Repr

/-- What the host sees (R202, 60_exceptions.md R184): status and output always, the fault record when Faulted, the
registers and memory when Halted. -/
structure HostView where
  status : Status
  out : List Value
  fault : Option FaultRecord
  halted : Option HaltedView
  deriving DecidableEq, Repr

/-- The status interface (R202). -/
def State.hostView (s : State) : HostView where
  status := s.status
  out := s.out
  fault := if s.status = .faulted then s.fault else none
  halted := if s.status = .halted then some ⟨s.A, s.B, s.pc, s.Z, s.P, s.U, s.H, s.mem⟩ else none

/-- Whether the run loop performs another cycle (40_cycle_engine.md R100: while the status is Running; the halt flag is
read before every cycle, 10_state.md R26). In every state of a run the flag is false while the status is Running
(R35); where both tests disagree no cycle occurs (log 7). -/
def State.active (s : State) : Bool := decide (s.status = .running) && !s.H

/-- The cell the next fetch reads, if the counter is in range (R101, R102). -/
def State.fetchCell (s : State) : Option Nat :=
  if s.pc < 0 ∨ s.pc > 999 then none else some s.pc.toNat

/-- Store a word in the cell the next fetch reads; nothing changes when no cell or no value is named (log 16). -/
def State.placeWord (s : State) (w : Nat) : State :=
  match s.fetchCell with
  | some a => if h : w < 1000 then s.memWrite a ⟨w, h⟩ else s
  | none => s

end Sys2Proof.Machine
end

