-- ==== Sys2Proof/Machine/Step.lean ====
section
/-! DEFINITION. One step of the machine: one whole cycle (40_cycle_engine.md R112). -/

namespace Sys2Proof.Machine

/-- One step under the operand numbers `c`. A core that is not running takes no further cycle: its state stays
(10_state.md R28, log 7). A fault of the check or the fetch is taken with the counter not advanced (R101, R102). -/
def stepWith (c : ExtOperands) (s : State) : Host.Outcome State Fault Refusal :=
  if s.active then
    match fetch s with
    | .ok v => exec (decodeWith c v) s
    | .error f => .next (s.raise f)
  else .next s

/-- One step of the machine with the default operand numbers of R6. -/
def step (s : State) : Host.Outcome State Fault Refusal := stepWith Config.extOperands s

/-- The state with the word `w` in the cell that `step` fetches next; `nbits` says nothing more (log 3). -/
def State.withFetchWord (s : State) (_nbits w : Nat) : State := s.placeWord w

end Sys2Proof.Machine
end

