-- ==== Sys2Proof/Safety.lean ====
section
/-! DEFINITION. The terms in which claims speak of states and runs: 10_state.md R28, R35 and 40_cycle_engine.md R113. -/

namespace Sys2Proof.Machine

/-- A run that has not failed: no fault was raised. -/
abbrev State.safe (s : State) : Prop := s.status ≠ .faulted

/-- The one successful end of a run (R28: Halted is the only final status). -/
abbrev State.final (s : State) : Prop := s.status = .halted

/-- `k` steps from `s` raise no fault. -/
abbrev safeRun (k : Nat) (s : State) : Prop := ∃ t, Sys2Proof.core.run k s = .next t ∧ t.safe

/-- The counter passes the check of R101. -/
abbrev State.pcInRange (s : State) : Prop := 0 ≤ s.pc ∧ s.pc ≤ 999

/-- The status, the halt flag and the fault record of a run agree (R28, R29, R35 item 4), memory is canonical (R27,
R35 item 3), and a halted core's counter is in range (R35 item 2). -/
structure State.Coherent (s : State) : Prop where
  memory : s.mem.wf
  running : s.status = .running → s.H = false ∧ s.fault = none
  halted : s.status = .halted → s.H = true ∧ s.fault = none ∧ s.pcInRange
  faulted : s.status = .faulted → s.H = false ∧ s.fault ≠ none

/-- The core performs another cycle: Running, and no halt flag set (R100). -/
abbrev State.Active (s : State) : Prop := s.status = .running ∧ s.H = false

/-- An INP that waits: the channel offers nothing (46_io.md R170). -/
abbrev State.waitsFor (s : State) (i : Instr) : Prop := i = .inp ∧ s.inp = []

end Sys2Proof.Machine
end

