-- ==== Sys2Proof/Certificates/Slice0/Obligations.lean ====
section
/-! DEFINITION. What is claimed of the model, rule by rule of spec/. States in a claim about one instruction are those in
which the core performs a cycle (`State.Active`, 40_cycle_engine.md R112's precondition). A next state is given whole,
so everything a claim does not update is unchanged: its frame. -/

open Sys2Proof Sys2Proof.Machine

/-! ### Vocabulary of the claims, written from the spec and not over the model's own operations -/

/-- R105: the working value `w`. -/
abbrev Sys2Proof.Claims.w (s : State) : Value := if s.U then s.B else s.A

/-- R103: the address of the next sequential instruction. -/
abbrev Sys2Proof.Claims.nextPc (s : State) : Int := (s.pc + 1) % 1000

/-- R103, R108: the counter advanced and the result `r` of an instruction other than USEB written back, to `B` with `U`
cleared when `U` was true and to `A` otherwise. -/
abbrev Sys2Proof.Claims.wroteBack (s : State) (r : Value) : State :=
  if s.U then { s with pc := Claims.nextPc s, B := r, U := false } else { s with pc := Claims.nextPc s, A := r }

/-- The same, with the flags of `r` (R110). -/
abbrev Sys2Proof.Claims.wroteFlagged (s : State) (r : Value) : State :=
  { Claims.wroteBack s r with Z := decide (r.val = 0), P := decide (r.val < 500) }

/-- R183, R184: an Execute fault: the counter is advanced, record and status are written, nothing else. What a faulted
state's registers hold is the spec's decision D12 (log 8). -/
abbrev Sys2Proof.Claims.faultedAt (s : State) (k : FaultKind) (info : Int) : State :=
  { s with pc := Claims.nextPc s, status := .faulted, fault := some ⟨k, info⟩ }

open Sys2Proof.Claims

/-! ### Decoding and encoding -/

/-- Words of every class, written out from R85's patterns, decode to their rows. The words 400 to 403 rest on the default
operand numbers (the spec's D2, log 2), 900 on D17 (log 15), and that 1000 is no word on the model's reading of the host's
numbering (log 3). -/
def Obligations.TableWordsDecode : Prop :=
  decodeTableWord 16 0 = some .hlt ∧ decodeTableWord 16 99 = some (.trap 99) ∧
  decodeTableWord 16 199 = some (.add 99) ∧ decodeTableWord 16 250 = some (.sub 50) ∧
  decodeTableWord 16 399 = some (.sta 99) ∧ decodeTableWord 16 401 = some .useb ∧
  decodeTableWord 16 402 = some .mul ∧ decodeTableWord 16 403 = some .div ∧
  decodeTableWord 16 400 = some (.ext 0) ∧ decodeTableWord 16 500 = some (.lda 0) ∧
  decodeTableWord 16 612 = some (.bra 12) ∧ decodeTableWord 16 704 = some (.brz 4) ∧
  decodeTableWord 16 820 = some (.brp 20) ∧ decodeTableWord 16 901 = some .inp ∧
  decodeTableWord 16 902 = some .out ∧ decodeTableWord 16 900 = some (.uio 0) ∧
  decodeTableWord 16 1000 = none

/-- R82, R83, R85: which words each instruction has, for every operand `n`. The class 4 operand numbers are parameters
by the spec's decision D2 (log 2), here any pairwise distinct ones; that 900 is UIO 0 is its decision D17 (log 15). -/
def Obligations.ClassMapSelectsRows : Prop :=
  ∀ (c : ExtOperands) (v : Value) (n : Operand), c.distinct →
    (decodeWith c v = .hlt ↔ v.val = 0) ∧
    (decodeWith c v = .trap n ↔ v.val = n.val ∧ n ≠ 0) ∧
    (decodeWith c v = .add n ↔ v.val = 100 + n.val) ∧
    (decodeWith c v = .sub n ↔ v.val = 200 + n.val) ∧
    (decodeWith c v = .sta n ↔ v.val = 300 + n.val) ∧
    (decodeWith c v = .useb ↔ v.val = 400 + c.useb.val) ∧
    (decodeWith c v = .mul ↔ v.val = 400 + c.mul.val) ∧
    (decodeWith c v = .div ↔ v.val = 400 + c.div.val) ∧
    (decodeWith c v = .ext n ↔ v.val = 400 + n.val ∧ n ≠ c.useb ∧ n ≠ c.mul ∧ n ≠ c.div) ∧
    (decodeWith c v = .lda n ↔ v.val = 500 + n.val) ∧
    (decodeWith c v = .bra n ↔ v.val = 600 + n.val) ∧
    (decodeWith c v = .brz n ↔ v.val = 700 + n.val) ∧
    (decodeWith c v = .brp n ↔ v.val = 800 + n.val) ∧
    (decodeWith c v = .inp ↔ v.val = 901) ∧
    (decodeWith c v = .out ↔ v.val = 902) ∧
    (decodeWith c v = .uio n ↔ v.val = 900 + n.val ∧ n ≠ 1 ∧ n ≠ 2)

/-- Decoding the word of a well-formed instruction gives it back, with every operand at every value (R81, R85). -/
def Obligations.DecodeEncodeRoundTrip : Prop :=
  ∀ (c : ExtOperands) (i : Instr), c.distinct → i.wellFormed c = true → decodeWith c (encodeWith c i) = i

/-- Every value decodes to a well-formed instruction whose word is that value: no value is left out and none has two
meanings (R85, R86). -/
def Obligations.EveryValueIsTheWordOfItsInstruction : Prop :=
  ∀ (c : ExtOperands) (v : Value), c.distinct →
    (decodeWith c v).wellFormed c = true ∧ encodeWith c (decodeWith c v) = v

/-! ### The step, and the state after reset -/

/-- When the cell at the counter holds `v`, a step of an active core is `exec` of the instruction `v` decodes to, at the
same state: `exec` itself moves the counter past the word (R102 to R104, R112). -/
def Obligations.StepRunsDecodedInstruction : Prop :=
  ∀ (c : ExtOperands) (s : State) (v : Value), s.Active → s.pcInRange → s.mem.read s.pc.toNat = some v →
    stepWith c s = exec (decodeWith c v) s ∧ step s = exec (decode v) s

/-- A core that is not Running takes no further step: its state stays (R28). That a step then answers the same state is
the model's choice, log 7. -/
def Obligations.StoppedCoreKeepsItsState : Prop :=
  ∀ (k : Nat) (s : State), s.status ≠ .running → Sys2Proof.core.run k s = .next s

/-- R101: a counter outside [0, 999] raises before anything else happens. The recorded integer is D5's and the kept
counter D12's (log 8, log 18). -/
def Obligations.OutOfRangeCounterFaults : Prop :=
  ∀ s : State, s.Active → ¬ s.pcInRange →
    step s = .next { s with status := .faulted, fault := some ⟨.outOfRangeProgramCounter, s.pc⟩ }

/-- R102: a fetch from an unmapped cell raises and the counter is not advanced. The recorded integer is D5's (log 18), the
kept state D12's (log 8). -/
def Obligations.UnmappedFetchFaults : Prop :=
  ∀ s : State, s.Active → s.pcInRange → s.mem.read s.pc.toNat = none →
    step s = .next { s with status := .faulted, fault := some ⟨.unmappedMemory, s.pc⟩ }

/-- R34's table, for a start issued in any state; and `State.reset` is the start with nothing loaded at START_ADDRESS's
default; the pair (Z, P) is then not the one `SetFlags` never gives. The values of B, Z, P, U, H are the spec's decision
D6 (log 9), the counter's D16 (log 18); the inputs and the empty memory of `State.reset` are the model's choice (log 4,
log 5). -/
def Obligations.StartGivesResetValues : Prop :=
  (∀ (s : State) (mem0 : Memory) (a : Int) (inputs : List Int),
    s.start mem0 a inputs =
      { A := 0, B := 0, pc := a, Z := false, P := false, U := false, H := false, mem := mem0,
        status := .running, fault := none, out := [], inp := inputs }) ∧
  (∀ s : State, State.reset = s.start [] 0 []) ∧
  ¬ (State.reset.Z = true ∧ State.reset.P = false)

/-! ### What each instruction does -/

/-- R120: HLT sets the halt flag and the status becomes Halted; the counter is advanced and `U` is cleared (that HLT
consumes `U` is the spec's decision D25, log 12; the status is D11's); the core then takes no further step (that its steps
then answer the same state is the model's choice, log 7). -/
def Obligations.HltHalts : Prop :=
  ∀ s : State, s.Active →
    exec .hlt s = .next { s with pc := nextPc s, U := false, H := true, status := .halted } ∧
    step { s with pc := nextPc s, U := false, H := true, status := .halted } =
      .next { s with pc := nextPc s, U := false, H := true, status := .halted }

/-- R121, R153, R172: the three extension points always fault, recording the operand (D5, log 18); no handler exists
(D23, log 15). What the faulted state holds is D12's (log 8). -/
def Obligations.ExtensionPointsFault : Prop :=
  ∀ (c : ExtOperands) (s : State) (n : Operand), s.Active →
    ((Instr.trap n).wellFormed c = true → exec (.trap n) s = .next (faultedAt s .unknownTrap n.val)) ∧
    ((Instr.ext n).wellFormed c = true →
      exec (.ext n) s = .next (faultedAt s .unknownExtendedInstruction n.val)) ∧
    ((Instr.uio n).wellFormed c = true → exec (.uio n) s = .next (faultedAt s .unknownIOInstruction n.val))

/-- R130: ADD: result, flags, frame and fault. In the fault clause the recorded integer is the spec's decision D5 (log 18) and
what the faulted state holds its decision D12 (log 8). -/
def Obligations.AddResult : Prop :=
  ∀ (s : State) (n : Operand), s.Active →
    (∀ m r : Value, s.mem.read n.val = some m → r.val = ((w s).val + m.val) % 1000 →
      exec (.add n) s = .next (wroteFlagged s r)) ∧
    (s.mem.read n.val = none → exec (.add n) s = .next (faultedAt s .unmappedMemory n.val))

/-- R131: SUB subtracts the memory value from the working value. In the fault clause the recorded integer is the spec's decision D5 (log 18) and
what the faulted state holds its decision D12 (log 8). -/
def Obligations.SubResult : Prop :=
  ∀ (s : State) (n : Operand), s.Active →
    (∀ m r : Value, s.mem.read n.val = some m → (r.val : Int) = ((w s).val - m.val : Int) % 1000 →
      exec (.sub n) s = .next (wroteFlagged s r)) ∧
    (s.mem.read n.val = none → exec (.sub n) s = .next (faultedAt s .unmappedMemory n.val))

/-- R140: STA stores the working value in the one cell its operand names, mapping it; every other cell reads as before;
the flags are those of the stored value and `U` is cleared (that STA consumes `U` is the spec's decision D25, log 12);
nothing else changes. -/
def Obligations.StaStores : Prop :=
  ∀ (s : State) (n : Operand), s.Active →
    ∃ t : State, exec (.sta n) s = .next t ∧
      t.mem.read (operandAddress n) = some (w s) ∧
      (∀ a : Nat, a ≠ operandAddress n → t.mem.read a = s.mem.read a) ∧
      t = { wroteFlagged s (w s) with mem := t.mem }

/-- R141: LDA: result, flags, frame and fault. In the fault clause the recorded integer is the spec's decision D5 (log 18) and
what the faulted state holds its decision D12 (log 8). -/
def Obligations.LdaLoads : Prop :=
  ∀ (s : State) (n : Operand), s.Active →
    (∀ m : Value, s.mem.read n.val = some m → exec (.lda n) s = .next (wroteFlagged s m)) ∧
    (s.mem.read n.val = none → exec (.lda n) s = .next (faultedAt s .unmappedMemory n.val))

/-- R150: USEB sets `U` and changes nothing else but the counter; executed while `U` is set it also copies `B` to `A`
(the spec's decision D20, log 11). -/
def Obligations.UsebSelectsAuxiliary : Prop :=
  ∀ s : State, s.Active →
    exec .useb s = .next { s with pc := nextPc s, U := true, A := w s }

/-- R151: MUL. -/
def Obligations.MulResult : Prop :=
  ∀ (s : State) (r : Value), s.Active → r.val = (s.B.val * (w s).val) % 1000 →
    exec .mul s = .next (wroteFlagged s r)

/-- R152: DIV gives the floor quotient of `B` by the working value (rounding: the spec's decision D3, log 10) and faults
on a zero divisor. In the fault clause the recorded integer is the spec's decision D5 (log 18) and
what the faulted state holds its decision D12 (log 8). -/
def Obligations.DivResult : Prop :=
  ∀ s : State, s.Active →
    (∀ r : Value, (w s).val ≠ 0 → r.val = s.B.val / (w s).val → exec .div s = .next (wroteFlagged s r)) ∧
    ((w s).val = 0 → exec .div s = .next (faultedAt s .divisionByZero 0))

/-- R160: BRA. That a branch consumes `U` is the spec's decision D25 (log 12). -/
def Obligations.BraJumps : Prop :=
  ∀ (s : State) (n : Operand), s.Active →
    exec (.bra n) s = .next { s with pc := n.val, U := false }

/-- R161: BRZ tests the zero flag. That a branch consumes `U` is the spec's decision D25 (log 12). -/
def Obligations.BrzJumpsOnZeroFlag : Prop :=
  ∀ (s : State) (n : Operand), s.Active →
    (s.Z = true → exec (.brz n) s = .next { s with pc := n.val, U := false }) ∧
    (s.Z = false → exec (.brz n) s = .next { s with pc := nextPc s, U := false })

/-- R162: BRP tests the positive flag. That a branch consumes `U` is the spec's decision D25 (log 12). -/
def Obligations.BrpJumpsOnPositiveFlag : Prop :=
  ∀ (s : State) (n : Operand), s.Active →
    (s.P = true → exec (.brp n) s = .next { s with pc := n.val, U := false }) ∧
    (s.P = false → exec (.brp n) s = .next { s with pc := nextPc s, U := false })

/-- R170: INP takes the next delivered integer; in [0, 999] it is the result, outside it is a fault that has consumed it
(D24, log 17); while the channel offers nothing the state stays (D9; how the wait shows is the model's choice, log 6). In the
fault clause the recorded integer is D5's (log 18) and what the faulted state holds D12's (log 8). -/
def Obligations.InpReadsTheNextInteger : Prop :=
  ∀ s : State, s.Active →
    (∀ (r : Value) (rest : List Int), s.inp = (r.val : Int) :: rest →
      exec .inp s = .next { wroteFlagged s r with inp := rest }) ∧
    (∀ (x : Int) (rest : List Int), s.inp = x :: rest → x < 0 ∨ 999 < x →
      exec .inp s = .next { faultedAt s .ioValueRange x with inp := rest }) ∧
    (s.inp = [] → exec .inp s = .next s)

/-- R170, R195: an INP with nothing offered leaves the state as it is, and completes once the channel delivers; how the
wait shows is the model's choice (log 6). -/
def Obligations.WaitingInputResumesOnDelivery : Prop :=
  ∀ (s : State) (r : Value), s.Active → s.inp = [] →
    exec .inp s = .next s ∧ exec .inp (s.deliver r.val) = .next (wroteFlagged s r)

/-- R171: OUT appends the working value to the output and sets the flags from it; the channel always accepts (D10,
log 13). That OUT consumes `U` is the spec's decision D25 (log 12). -/
def Obligations.OutEmitsTheWorkingValue : Prop :=
  ∀ s : State, s.Active →
    exec .out s = .next { wroteFlagged s (w s) with out := s.out ++ [w s] }

/-! ### The shared operations -/

/-- R8: truncation gives the one value that differs from the integer by a multiple of 1000. -/
def Obligations.TruncIsTheNonNegativeRemainder : Prop :=
  ∀ (n : Int) (r : Value), trunc n = r ↔ (1000 : Int) ∣ n - r.val

/-- R110: what `SetFlags` does, its three outcomes, and the one pair it never gives. -/
def Obligations.SetFlagsOutcomes : Prop :=
  ∀ (s : State) (v : Value),
    s.setFlags v = { s with Z := decide (v.val = 0), P := decide (v.val < 500) } ∧
    (v.val = 0 → (s.setFlags v).Z = true ∧ (s.setFlags v).P = true) ∧
    (1 ≤ v.val → v.val ≤ 499 → (s.setFlags v).Z = false ∧ (s.setFlags v).P = true) ∧
    (500 ≤ v.val → (s.setFlags v).Z = false ∧ (s.setFlags v).P = false) ∧
    ¬ ((s.setFlags v).Z = true ∧ (s.setFlags v).P = false)

/-- Two canonical memories that read alike are the same data: a memory is determined by its cells (R27). -/
def Obligations.CanonicalMemoriesAreDeterminedByTheirCells : Prop :=
  ∀ m m' : Memory, m.wf → m'.wf → (∀ a, m.read a = m'.read a) → m = m'

/-- R202, R184: the host sees the fault record and the output of a faulted core and none of its registers or cells, and
all registers and cells of a halted one. -/
def Obligations.HostSeesRegistersOnlyWhenHalted : Prop :=
  ∀ s : State,
    (s.status = .running → s.hostView = ⟨.running, s.out, none, none⟩) ∧
    (s.status = .faulted → s.hostView = ⟨.faulted, s.out, s.fault, none⟩) ∧
    (s.status = .halted →
      s.hostView = ⟨.halted, s.out, none, some ⟨s.A, s.B, s.pc, s.Z, s.P, s.U, s.H, s.mem⟩⟩)

/-! ### Whole-machine rules -/

/-- Every instruction and every step answers a next state: nothing is refused, and the faults of the spec are taken as
next states (the model's choice, log 8). -/
def Obligations.EveryStepAnswersANextState : Prop :=
  (∀ (i : Instr) (s : State), ∃ t, exec i s = .next t) ∧ ∀ (c : ExtOperands) (s : State), ∃ t, stepWith c s = .next t

/-- R27, R28, R29, R35: a step keeps memory canonical and the status, the halt flag and the fault record in agreement
(what H and memory hold in a faulted state is the spec's decision D12, log 8). -/
def Obligations.StepKeepsCoherence : Prop :=
  ∀ s t : State, s.Coherent → step s = .next t → t.Coherent

/-- The reset state, and the state of any start with a canonical memory, are coherent. -/
def Obligations.StartIsCoherent : Prop :=
  State.reset.Coherent ∧
  ∀ (s : State) (mem0 : Memory) (a : Int) (inputs : List Int), mem0.wf → (s.start mem0 a inputs).Coherent

/-- R35 item 2: a cycle that raises nothing leaves the counter in [0, 999] whatever it was before, and a counter in range
stays in range (in a faulted state by the spec's decision D12, log 8). -/
def Obligations.CounterStaysInRange : Prop :=
  ∀ s t : State, step s = .next t →
    (s.Active → t.status ≠ .faulted → t.pcInRange) ∧ (s.pcInRange → t.pcInRange)

/-- R35 item 2, 90_conflicts.md C7: in a run from any start, the out-of-range fault is raised only by the first check:
the record names the start address, which is out of range, and nothing was done. The recorded integer is the spec's
decision D5 and the unreduced start address its D16 (log 18); the kept state is D12's (log 8). -/
def Obligations.OutOfRangeFaultOnlyFromTheStartAddress : Prop :=
  ∀ (s₀ t : State) (mem0 : Memory) (a x : Int) (inputs : List Int) (k : Nat),
    Sys2Proof.core.run k (s₀.start mem0 a inputs) = .next t →
    t.fault = some ⟨.outOfRangeProgramCounter, x⟩ →
    x = a ∧ (a < 0 ∨ 999 < a) ∧
      t = { s₀.start mem0 a inputs with status := .faulted, fault := some ⟨.outOfRangeProgramCounter, a⟩ }

/-- Only STA changes memory, and only the cell its operand names (R36, R140). That a faulted state's memory is as
before is the spec's decision D12 (log 8). -/
def Obligations.OnlyStoreChangesMemory : Prop :=
  ∀ (i : Instr) (s t : State) (a : Nat), exec i s = .next t →
    (∀ n, i = .sta n → a ≠ operandAddress n) → t.mem.read a = s.mem.read a

/-- R54, R209: no step changes a cell above 99; R27: no step makes a mapped cell unmapped. Of a faulted state this
is the spec's decision D12 (log 8). -/
def Obligations.StepKeepsUpperCellsAndMappedness : Prop :=
  ∀ (s t : State) (a : Nat), step s = .next t →
    (100 ≤ a → t.mem.read a = s.mem.read a) ∧ (s.mem.read a ≠ none → t.mem.read a ≠ none)

/-- R64, R65: the input channel is read by INP alone and the output written by OUT alone; an INP takes exactly the next
integer; that a faulting INP has taken it too is the spec's decision D24 (log 17). -/
def Obligations.ChannelsAreUsedOnlyByInpAndOut : Prop :=
  ∀ (i : Instr) (s t : State), exec i s = .next t →
    (i ≠ .inp → t.inp = s.inp) ∧ (i ≠ .out → t.out = s.out) ∧ (i = .inp → t.inp = s.inp.tail)

/-- R30, R66: along a run the output sequence only grows at its end. -/
def Obligations.OutputOnlyGrowsAlongRuns : Prop :=
  ∀ (k : Nat) (s t : State), Sys2Proof.core.run k s = .next t → ∃ emitted : List Value, t.out = s.out ++ emitted

/-- R111: HLT, USEB, the branches and every instruction that raises keep the flags; the other eight set them from the
value they leave in the working register, whichever it was. What Z and P hold in a faulted state is the spec's decision
D12 (log 8). -/
def Obligations.FlagsDescribeTheWorkingRegister : Prop :=
  ∀ (i : Instr) (s t : State), s.Active → exec i s = .next t → ¬ s.waitsFor i →
    ((t.status = .faulted ∨ i = .hlt ∨ i = .useb ∨ ∃ n, i = .bra n ∨ i = .brz n ∨ i = .brp n) →
      t.Z = s.Z ∧ t.P = s.P) ∧
    (t.status ≠ .faulted →
      (i = .mul ∨ i = .div ∨ i = .inp ∨ i = .out ∨ ∃ n, i = .add n ∨ i = .sub n ∨ i = .sta n ∨ i = .lda n) →
      t.Z = decide ((if s.U then t.B else t.A).val = 0) ∧ t.P = decide ((if s.U then t.B else t.A).val < 500))

/-- R20, R21, R108: `B` is written only when `U` was set and the instruction is not USEB, and then `A` is not. Of a
faulted state this is the spec's decision D12 (log 8). -/
def Obligations.OneRegisterIsWritten : Prop :=
  ∀ (i : Instr) (s t : State), exec i s = .next t →
    ((s.U = false ∨ i = .useb) → t.B = s.B) ∧ (s.U = true → i ≠ .useb → t.A = s.A)

/-- R25, R207: after an instruction that completes, `U` is set exactly if it was USEB: the selection lasts for one
instruction. That instructions which change no register consume it is the spec's decision D25 (log 12). -/
def Obligations.SelectionLastsOneInstruction : Prop :=
  ∀ (i : Instr) (s t : State), s.Active → exec i s = .next t → t.status ≠ .faulted → ¬ s.waitsFor i →
    (t.U = true ↔ i = .useb)

/-- R26, R113: the halt flag is set only by HLT and never cleared, and a run is halted by HLT alone. The flag
of a faulted state is the spec's decision D12 (log 8). -/
def Obligations.OnlyHltHalts : Prop :=
  ∀ (i : Instr) (s t : State), exec i s = .next t →
    (s.H = true → t.H = true) ∧ (s.H = false → (t.H = true ↔ i = .hlt)) ∧
    (s.Active → (t.status = .halted ↔ i = .hlt))

/-- R182: which instruction raises which fault in Execute, and when. The recorded integers are D5's (log 18). -/
def Obligations.WhichInstructionRaisesWhichFault : Prop :=
  ∀ (i : Instr) (s t : State), s.Active → exec i s = .next t → t.status = .faulted →
    (∃ n, (i = .add n ∨ i = .sub n ∨ i = .lda n) ∧ s.mem.read n.val = none ∧
      t.fault = some ⟨.unmappedMemory, n.val⟩) ∨
    (∃ n, i = .trap n ∧ t.fault = some ⟨.unknownTrap, n.val⟩) ∨
    (∃ n, i = .ext n ∧ t.fault = some ⟨.unknownExtendedInstruction, n.val⟩) ∨
    (∃ n, i = .uio n ∧ t.fault = some ⟨.unknownIOInstruction, n.val⟩) ∨
    (i = .inp ∧ ∃ x rest, s.inp = x :: rest ∧ (x < 0 ∨ 999 < x) ∧ t.fault = some ⟨.ioValueRange, x⟩) ∨
    (i = .div ∧ (w s).val = 0 ∧ t.fault = some ⟨.divisionByZero, 0⟩)

/-- R184, R185: a step that faults has no effect but the record, the status, the counter's advance when the fetch
succeeded, and the consumed integer of an INP. What a faulted state's registers hold is D12's (log 8). -/
def Obligations.FaultsArePrecise : Prop :=
  ∀ s t : State, s.Active → step s = .next t → t.status = .faulted →
    t = { s with pc := t.pc, status := .faulted, fault := t.fault, inp := t.inp } ∧
    (s.pcInRange ∧ s.mem.read s.pc.toNat ≠ none → t.pc = nextPc s) ∧
    (¬ (s.pcInRange ∧ s.mem.read s.pc.toNat ≠ none) → t.pc = s.pc) ∧
    (t.inp = s.inp ∨ ∃ x, t.fault = some ⟨.ioValueRange, x⟩ ∧ s.inp = x :: t.inp)

/-- R62, R210: a STA into the cell that is executed next changes what is executed next, decoded with the default operand numbers (the
spec's decision D2, log 2). -/
def Obligations.StoreIsSeenByTheNextFetch : Prop :=
  ∀ (s : State) (n : Operand), s.Active → nextPc s = n.val →
    ∃ t : State, exec (.sta n) s = .next t ∧ step t = exec (decode (w s)) t

/-- R213, R131 corner case e: after SUB the positive flag says `w >= m` while the true difference lies in [-500, 499]. -/
def Obligations.SubComparesWithinHalfTheRange : Prop :=
  ∀ (s : State) (n : Operand) (m : Value), s.Active → s.mem.read n.val = some m →
    -500 ≤ ((w s).val - m.val : Int) → ((w s).val - m.val : Int) ≤ 499 →
    ∃ t : State, exec (.sub n) s = .next t ∧ (t.P = true ↔ m.val ≤ (w s).val)

/-- R130 corner case f: ADD adds in the signed reading while the signed sum lies in [-500, 499]. -/
def Obligations.AddIsSignedWithinHalfTheRange : Prop :=
  ∀ (s : State) (n : Operand) (m : Value), s.Active → s.mem.read n.val = some m →
    -500 ≤ signed (w s) + signed m → signed (w s) + signed m ≤ 499 →
    ∃ t : State, exec (.add n) s = .next t ∧ signed (if s.U then t.B else t.A) = signed (w s) + signed m

/-- R21: unless `U` selects it, `B` is read by MUL and DIV alone: changing it changes nothing else of the outcome.
Of a faulted state this is the spec's decision D12 (log 8). -/
def Obligations.AuxiliaryIsReadOnlyByMulAndDiv : Prop :=
  ∀ (i : Instr) (s t : State) (b : Value), s.U = false → i ≠ .mul → i ≠ .div → exec i s = .next t →
    exec i { s with B := b } = .next { t with B := b }

/-- R54: once an instruction is fetched, cells above 99 have no part in it: memories that agree on 0 to 99 give the
same outcome but for the memory, and those again agree on 0 to 99, while cells above stay as they were. Of a faulted
state this is the spec's decision D12 (log 8). -/
def Obligations.UpperCellsAreOutOfReach : Prop :=
  ∀ (i : Instr) (s t : State) (m : Memory), (∀ a, a < 100 → m.read a = s.mem.read a) → exec i s = .next t →
    ∃ m' : Memory, exec i { s with mem := m } = .next { t with mem := m' } ∧
      (∀ a, a < 100 → m'.read a = t.mem.read a) ∧ ∀ a, 100 ≤ a → m'.read a = m.read a

/-- R35 item 2, R182: from every state whose counter is in range and whose record is no OutOfRangeProgramCounter, a step
leads to such a state again: the check of R101 raises nothing once the counter is in range. The counter of a faulted
state is the spec's decision D12 (log 8). -/
def Obligations.StepKeepsCounterInRangeAndRaisesNoOutOfRange : Prop :=
  ∀ s t : State, s.pcInRange → (∀ x, s.fault ≠ some ⟨.outOfRangeProgramCounter, x⟩) → step s = .next t →
    t.pcInRange ∧ ∀ x, t.fault ≠ some ⟨.outOfRangeProgramCounter, x⟩
end

