-- ==== Sys2Proof/Laws/Memory.lean ====
section
/-! SUPPORT. The laws of memory: read after write, and that a write keeps the canonical form. -/

namespace Sys2Proof.Machine

@[simp] theorem Memory.read_nil (a : Nat) : Memory.read [] a = none := rfl

/-- A read of the cell just written gives the value written. -/
@[simp] theorem Memory.read_write_same (m : Memory) (a : Nat) (v : Value) : (m.write a v).read a = some v := by
  induction m with
  | nil => simp [Memory.write, Memory.read]
  | cons c rest ih =>
    obtain ⟨b, u⟩ := c
    unfold Memory.write
    split
    · simp [Memory.read]
    · split
      · simp [Memory.read]
      · next _ h => simpa [Memory.read, h] using ih

/-- A write leaves every other cell alone. -/
theorem Memory.read_write_other (m : Memory) {a b : Nat} (v : Value) (h : b ≠ a) :
    (m.write a v).read b = m.read b := by
  induction m with
  | nil => simp [Memory.write, Memory.read, h]
  | cons c rest ih =>
    obtain ⟨d, u⟩ := c
    unfold Memory.write
    split
    · simp [Memory.read, h]
    · split
      · next hd => subst hd; simp [Memory.read, h]
      · by_cases hb : b = d
        · simp [Memory.read, hb]
        · simpa [Memory.read, hb] using ih

/-- Every cell of a written memory is the written one or one of before. -/
theorem Memory.mem_write {m : Memory} {a : Nat} {v : Value} {c : Nat × Value} (h : c ∈ m.write a v) :
    c = (a, v) ∨ c ∈ m := by
  induction m with
  | nil => simpa [Memory.write] using h
  | cons d rest ih =>
    obtain ⟨b, u⟩ := d
    unfold Memory.write at h
    split at h
    · simpa using h
    · split at h
      · rcases List.mem_cons.mp h with h | h
        · exact .inl h
        · exact .inr (List.mem_cons_of_mem _ h)
      · rcases List.mem_cons.mp h with h | h
        · exact .inr (h ▸ List.mem_cons_self)
        · exact (ih h).imp id (List.mem_cons_of_mem _)

theorem Memory.wf_nil : Memory.wf [] := by simp [Memory.wf]

/-- A write to one of the 1000 addresses keeps the canonical form. -/
theorem Memory.write_keeps_wf {m : Memory} {a : Nat} (v : Value) (hm : m.wf) (ha : a < 1000) :
    (m.write a v).wf := by
  refine ⟨?_, fun c hc => ?_⟩
  · replace hm := hm.1
    induction m with
    | nil => simp [Memory.write]
    | cons d rest ih =>
      obtain ⟨b, u⟩ := d
      obtain ⟨hb, hrest⟩ := List.pairwise_cons.mp hm
      unfold Memory.write
      split
      · next hab =>
        refine List.pairwise_cons.mpr ⟨fun c hc => ?_, hm⟩
        rcases List.mem_cons.mp hc with rfl | hc
        · exact hab
        · exact Nat.lt_trans hab (hb c hc)
      · split
        · next hab => subst hab; exact List.pairwise_cons.mpr ⟨hb, hrest⟩
        · next h1 h2 =>
          refine List.pairwise_cons.mpr ⟨fun c hc => ?_, ih hrest⟩
          rcases Memory.mem_write hc with rfl | hc
          · show b < a
            omega
          · exact hb c hc
  · rcases Memory.mem_write hc with rfl | hc
    · exact ha
    · exact hm.2 c hc

/-- The canonical form of the whole state's memory is kept by a store to a cell an operand names. -/
theorem State.memWrite_keeps_wf {s : State} {a : Nat} (v : Value) (hm : s.mem.wf) (ha : a < 1000) :
    (s.memWrite a v).mem.wf :=
  Memory.write_keeps_wf v hm ha

theorem State.memRead_mapped {s : State} {a : Nat} {v : Value} (h : s.mem.read a = some v) :
    s.memRead a = .ok v := by simp [State.memRead, h]

theorem State.memRead_unmapped {s : State} {a : Nat} (h : s.mem.read a = none) :
    s.memRead a = .error ⟨.unmappedMemory, a⟩ := by simp [State.memRead, h]

end Sys2Proof.Machine
end

