-- ==== Sys2Proof/Laws/State.lean ====
section
/-! SUPPORT. One lemma per field per named update of the state, so that no later proof unfolds a record update. -/

namespace Sys2Proof.Machine

variable (s : State)

/-! `State.advance` -/

@[simp] theorem State.advance_A : (s.advance).A = s.A := rfl
@[simp] theorem State.advance_B : (s.advance).B = s.B := rfl
@[simp] theorem State.advance_pc : (s.advance).pc = (s.pc + 1) % 1000 := rfl
@[simp] theorem State.advance_Z : (s.advance).Z = s.Z := rfl
@[simp] theorem State.advance_P : (s.advance).P = s.P := rfl
@[simp] theorem State.advance_U : (s.advance).U = s.U := rfl
@[simp] theorem State.advance_H : (s.advance).H = s.H := rfl
@[simp] theorem State.advance_mem : (s.advance).mem = s.mem := rfl
@[simp] theorem State.advance_status : (s.advance).status = s.status := rfl
@[simp] theorem State.advance_fault : (s.advance).fault = s.fault := rfl
@[simp] theorem State.advance_out : (s.advance).out = s.out := rfl
@[simp] theorem State.advance_inp : (s.advance).inp = s.inp := rfl

/-! `State.memWrite` -/

@[simp] theorem State.memWrite_A (a : Nat) (v : Value) : (s.memWrite a v).A = s.A := rfl
@[simp] theorem State.memWrite_B (a : Nat) (v : Value) : (s.memWrite a v).B = s.B := rfl
@[simp] theorem State.memWrite_pc (a : Nat) (v : Value) : (s.memWrite a v).pc = s.pc := rfl
@[simp] theorem State.memWrite_Z (a : Nat) (v : Value) : (s.memWrite a v).Z = s.Z := rfl
@[simp] theorem State.memWrite_P (a : Nat) (v : Value) : (s.memWrite a v).P = s.P := rfl
@[simp] theorem State.memWrite_U (a : Nat) (v : Value) : (s.memWrite a v).U = s.U := rfl
@[simp] theorem State.memWrite_H (a : Nat) (v : Value) : (s.memWrite a v).H = s.H := rfl
@[simp] theorem State.memWrite_mem (a : Nat) (v : Value) : (s.memWrite a v).mem = s.mem.write a v := rfl
@[simp] theorem State.memWrite_status (a : Nat) (v : Value) : (s.memWrite a v).status = s.status := rfl
@[simp] theorem State.memWrite_fault (a : Nat) (v : Value) : (s.memWrite a v).fault = s.fault := rfl
@[simp] theorem State.memWrite_out (a : Nat) (v : Value) : (s.memWrite a v).out = s.out := rfl
@[simp] theorem State.memWrite_inp (a : Nat) (v : Value) : (s.memWrite a v).inp = s.inp := rfl

/-! `State.emit` -/

@[simp] theorem State.emit_A (v : Value) : (s.emit v).A = s.A := rfl
@[simp] theorem State.emit_B (v : Value) : (s.emit v).B = s.B := rfl
@[simp] theorem State.emit_pc (v : Value) : (s.emit v).pc = s.pc := rfl
@[simp] theorem State.emit_Z (v : Value) : (s.emit v).Z = s.Z := rfl
@[simp] theorem State.emit_P (v : Value) : (s.emit v).P = s.P := rfl
@[simp] theorem State.emit_U (v : Value) : (s.emit v).U = s.U := rfl
@[simp] theorem State.emit_H (v : Value) : (s.emit v).H = s.H := rfl
@[simp] theorem State.emit_mem (v : Value) : (s.emit v).mem = s.mem := rfl
@[simp] theorem State.emit_status (v : Value) : (s.emit v).status = s.status := rfl
@[simp] theorem State.emit_fault (v : Value) : (s.emit v).fault = s.fault := rfl
@[simp] theorem State.emit_out (v : Value) : (s.emit v).out = s.out ++ [v] := rfl
@[simp] theorem State.emit_inp (v : Value) : (s.emit v).inp = s.inp := rfl

/-! `State.raise` -/

@[simp] theorem State.raise_A (f : FaultRecord) : (s.raise f).A = s.A := rfl
@[simp] theorem State.raise_B (f : FaultRecord) : (s.raise f).B = s.B := rfl
@[simp] theorem State.raise_pc (f : FaultRecord) : (s.raise f).pc = s.pc := rfl
@[simp] theorem State.raise_Z (f : FaultRecord) : (s.raise f).Z = s.Z := rfl
@[simp] theorem State.raise_P (f : FaultRecord) : (s.raise f).P = s.P := rfl
@[simp] theorem State.raise_U (f : FaultRecord) : (s.raise f).U = s.U := rfl
@[simp] theorem State.raise_H (f : FaultRecord) : (s.raise f).H = s.H := rfl
@[simp] theorem State.raise_mem (f : FaultRecord) : (s.raise f).mem = s.mem := rfl
@[simp] theorem State.raise_status (f : FaultRecord) : (s.raise f).status = .faulted := rfl
@[simp] theorem State.raise_fault (f : FaultRecord) : (s.raise f).fault = some f := rfl
@[simp] theorem State.raise_out (f : FaultRecord) : (s.raise f).out = s.out := rfl
@[simp] theorem State.raise_inp (f : FaultRecord) : (s.raise f).inp = s.inp := rfl

/-! `State.setFlags` -/

@[simp] theorem State.setFlags_A (v : Value) : (s.setFlags v).A = s.A := rfl
@[simp] theorem State.setFlags_B (v : Value) : (s.setFlags v).B = s.B := rfl
@[simp] theorem State.setFlags_pc (v : Value) : (s.setFlags v).pc = s.pc := rfl
@[simp] theorem State.setFlags_Z (v : Value) : (s.setFlags v).Z = zeroFlag v := rfl
@[simp] theorem State.setFlags_P (v : Value) : (s.setFlags v).P = positiveFlag v := rfl
@[simp] theorem State.setFlags_U (v : Value) : (s.setFlags v).U = s.U := rfl
@[simp] theorem State.setFlags_H (v : Value) : (s.setFlags v).H = s.H := rfl
@[simp] theorem State.setFlags_mem (v : Value) : (s.setFlags v).mem = s.mem := rfl
@[simp] theorem State.setFlags_status (v : Value) : (s.setFlags v).status = s.status := rfl
@[simp] theorem State.setFlags_fault (v : Value) : (s.setFlags v).fault = s.fault := rfl
@[simp] theorem State.setFlags_out (v : Value) : (s.setFlags v).out = s.out := rfl
@[simp] theorem State.setFlags_inp (v : Value) : (s.setFlags v).inp = s.inp := rfl

/-! `State.deliver` -/

@[simp] theorem State.deliver_A (x : Int) : (s.deliver x).A = s.A := rfl
@[simp] theorem State.deliver_B (x : Int) : (s.deliver x).B = s.B := rfl
@[simp] theorem State.deliver_pc (x : Int) : (s.deliver x).pc = s.pc := rfl
@[simp] theorem State.deliver_Z (x : Int) : (s.deliver x).Z = s.Z := rfl
@[simp] theorem State.deliver_P (x : Int) : (s.deliver x).P = s.P := rfl
@[simp] theorem State.deliver_U (x : Int) : (s.deliver x).U = s.U := rfl
@[simp] theorem State.deliver_H (x : Int) : (s.deliver x).H = s.H := rfl
@[simp] theorem State.deliver_mem (x : Int) : (s.deliver x).mem = s.mem := rfl
@[simp] theorem State.deliver_status (x : Int) : (s.deliver x).status = s.status := rfl
@[simp] theorem State.deliver_fault (x : Int) : (s.deliver x).fault = s.fault := rfl
@[simp] theorem State.deliver_out (x : Int) : (s.deliver x).out = s.out := rfl
@[simp] theorem State.deliver_inp (x : Int) : (s.deliver x).inp = s.inp ++ [x] := rfl

/-! `State.writeBack` -/

@[simp] theorem State.writeBack_A (sel isUseb : Bool) (r : Value) :
    (s.writeBack sel isUseb r).A = if (sel && !isUseb) = true then s.A else r := by
  unfold State.writeBack; split <;> rfl
@[simp] theorem State.writeBack_B (sel isUseb : Bool) (r : Value) :
    (s.writeBack sel isUseb r).B = if (sel && !isUseb) = true then r else s.B := by
  unfold State.writeBack; split <;> rfl
@[simp] theorem State.writeBack_pc (sel isUseb : Bool) (r : Value) :
    (s.writeBack sel isUseb r).pc = s.pc := by
  unfold State.writeBack; split <;> rfl
@[simp] theorem State.writeBack_Z (sel isUseb : Bool) (r : Value) :
    (s.writeBack sel isUseb r).Z = s.Z := by
  unfold State.writeBack; split <;> rfl
@[simp] theorem State.writeBack_P (sel isUseb : Bool) (r : Value) :
    (s.writeBack sel isUseb r).P = s.P := by
  unfold State.writeBack; split <;> rfl
@[simp] theorem State.writeBack_U (sel isUseb : Bool) (r : Value) :
    (s.writeBack sel isUseb r).U = if (sel && !isUseb) = true then false else s.U := by
  unfold State.writeBack; split <;> rfl
@[simp] theorem State.writeBack_H (sel isUseb : Bool) (r : Value) :
    (s.writeBack sel isUseb r).H = s.H := by
  unfold State.writeBack; split <;> rfl
@[simp] theorem State.writeBack_mem (sel isUseb : Bool) (r : Value) :
    (s.writeBack sel isUseb r).mem = s.mem := by
  unfold State.writeBack; split <;> rfl
@[simp] theorem State.writeBack_status (sel isUseb : Bool) (r : Value) :
    (s.writeBack sel isUseb r).status = s.status := by
  unfold State.writeBack; split <;> rfl
@[simp] theorem State.writeBack_fault (sel isUseb : Bool) (r : Value) :
    (s.writeBack sel isUseb r).fault = s.fault := by
  unfold State.writeBack; split <;> rfl
@[simp] theorem State.writeBack_out (sel isUseb : Bool) (r : Value) :
    (s.writeBack sel isUseb r).out = s.out := by
  unfold State.writeBack; split <;> rfl
@[simp] theorem State.writeBack_inp (sel isUseb : Bool) (r : Value) :
    (s.writeBack sel isUseb r).inp = s.inp := by
  unfold State.writeBack; split <;> rfl

/-! `State.settleHalt` -/

@[simp] theorem State.settleHalt_A : s.settleHalt.A = s.A := by
  unfold State.settleHalt; split <;> rfl
@[simp] theorem State.settleHalt_B : s.settleHalt.B = s.B := by
  unfold State.settleHalt; split <;> rfl
@[simp] theorem State.settleHalt_pc : s.settleHalt.pc = s.pc := by
  unfold State.settleHalt; split <;> rfl
@[simp] theorem State.settleHalt_Z : s.settleHalt.Z = s.Z := by
  unfold State.settleHalt; split <;> rfl
@[simp] theorem State.settleHalt_P : s.settleHalt.P = s.P := by
  unfold State.settleHalt; split <;> rfl
@[simp] theorem State.settleHalt_U : s.settleHalt.U = s.U := by
  unfold State.settleHalt; split <;> rfl
@[simp] theorem State.settleHalt_H : s.settleHalt.H = s.H := by
  unfold State.settleHalt; split <;> rfl
@[simp] theorem State.settleHalt_mem : s.settleHalt.mem = s.mem := by
  unfold State.settleHalt; split <;> rfl
@[simp] theorem State.settleHalt_status : s.settleHalt.status = if s.H = true then .halted else s.status := by
  unfold State.settleHalt; split <;> rfl
@[simp] theorem State.settleHalt_fault : s.settleHalt.fault = s.fault := by
  unfold State.settleHalt; split <;> rfl
@[simp] theorem State.settleHalt_out : s.settleHalt.out = s.out := by
  unfold State.settleHalt; split <;> rfl
@[simp] theorem State.settleHalt_inp : s.settleHalt.inp = s.inp := by
  unfold State.settleHalt; split <;> rfl

end Sys2Proof.Machine
end

