-- ==== Sys2Proof/Laws/Cycle.lean ====
section
/-! SUPPORT. What the shared operations of a cycle can do: one lemma each, cited instead of unfolding them. -/

namespace Sys2Proof.Machine

/-- `trunc` as an integer is the remainder modulo 1000. -/
theorem trunc_val (n : Int) : ((trunc n).val : Int) = n % 1000 := by
  unfold trunc
  have := Int.emod_nonneg n (show (1000 : Int) ≠ 0 by decide)
  simp only
  omega

/-- Truncation is the identity on a value. -/
theorem trunc_of_value (v : Value) : trunc (v.val : Int) = v := by
  apply Fin.ext
  have := trunc_val v.val
  have := v.isLt
  omega

/-- Every outcome of a cycle: a completed cycle, a raised fault, or an INP that waits. -/
theorem cycle_cases {isUseb : Bool} {body : Value → State → Effect} {s t : State}
    (h : cycle isUseb body s = .next t) :
    (∃ r u, body s.advance.workingValue s.advance = .result r u ∧ t = (u.writeBack s.U isUseb r).settleHalt) ∨
    (∃ f u, body s.advance.workingValue s.advance = .raised f u ∧ t = u.raise f) ∨
    (body s.advance.workingValue s.advance = .waits ∧ t = s) := by
  unfold cycle at h
  split at h <;> injection h with h
  · next r u hb => exact .inl ⟨r, u, hb, h.symm⟩
  · next f u hb => exact .inr (.inl ⟨f, u, hb, h.symm⟩)
  · next hb => exact .inr (.inr ⟨hb, h.symm⟩)

theorem cycle_of_result {isUseb : Bool} {body : Value → State → Effect} {s u : State} {r : Value}
    (h : body s.advance.workingValue s.advance = .result r u) :
    cycle isUseb body s = .next (u.writeBack s.U isUseb r).settleHalt := by
  simp [cycle, h]

theorem cycle_of_raised {isUseb : Bool} {body : Value → State → Effect} {s u : State} {f : FaultRecord}
    (h : body s.advance.workingValue s.advance = .raised f u) :
    cycle isUseb body s = .next (u.raise f) := by
  simp [cycle, h]

theorem cycle_of_waits {isUseb : Bool} {body : Value → State → Effect} {s : State}
    (h : body s.advance.workingValue s.advance = .waits) : cycle isUseb body s = .next s := by
  simp [cycle, h]

/-- The working value is selected by `U`, which the advance does not touch. -/
@[simp] theorem advance_workingValue (s : State) : s.advance.workingValue = if s.U then s.B else s.A := rfl

/-- An advanced counter lies in [0, 999]. -/
theorem advance_pc_range (s : State) : 0 ≤ s.advance.pc ∧ s.advance.pc ≤ 999 := by
  simp only [State.advance_pc]
  omega

theorem withOperand_mapped {n : Operand} {s : State} {k : Value → Effect} {m : Value}
    (h : s.mem.read n.val = some m) : withOperand n s k = k m := by
  simp [withOperand, operandAddress, State.memRead, h]

theorem withOperand_unmapped {n : Operand} {s : State} {k : Value → Effect} (h : s.mem.read n.val = none) :
    withOperand n s k = .raised ⟨.unmappedMemory, n.val⟩ s := by
  simp [withOperand, operandAddress, State.memRead, h]

/-- Every outcome of a fetch (R101, R102). -/
theorem fetch_cases (s : State) :
    ((s.pc < 0 ∨ 999 < s.pc) ∧ fetch s = .error ⟨.outOfRangeProgramCounter, s.pc⟩) ∨
    (0 ≤ s.pc ∧ s.pc ≤ 999 ∧ s.mem.read s.pc.toNat = none ∧ fetch s = .error ⟨.unmappedMemory, s.pc⟩) ∨
    (0 ≤ s.pc ∧ s.pc ≤ 999 ∧ ∃ v, s.mem.read s.pc.toNat = some v ∧ fetch s = .ok v) := by
  unfold fetch
  by_cases hr : s.pc < 0 ∨ s.pc > 999
  · exact .inl ⟨hr, by simp [hr]⟩
  · have h0 : 0 ≤ s.pc ∧ s.pc ≤ 999 := by omega
    cases hm : s.mem.read s.pc.toNat with
    | none => exact .inr (.inl ⟨h0.1, h0.2, rfl, by simp [hr]⟩)
    | some v => exact .inr (.inr ⟨h0.1, h0.2, v, rfl, by simp [hr]⟩)

/-- A word placed where the next fetch reads is what that fetch reads. -/
theorem fetch_placeWord {s : State} {w : Nat} (h0 : 0 ≤ s.pc) (h1 : s.pc ≤ 999) (hw : w < 1000) :
    fetch (s.placeWord w) = .ok ⟨w, hw⟩ := by
  have hr : ¬ (s.pc < 0 ∨ s.pc > 999) := by omega
  simp [State.placeWord, State.fetchCell, fetch, hr, hw]

/-- Placing a word keeps the canonical form. -/
theorem placeWord_keeps_wf {s : State} (w : Nat) (hm : s.mem.wf) : (s.placeWord w).mem.wf := by
  unfold State.placeWord State.fetchCell
  by_cases hr : s.pc < 0 ∨ s.pc > 999
  · simpa [hr] using hm
  · simp only [hr, if_false]
    split
    · exact Memory.write_keeps_wf _ hm (by omega)
    · exact hm

theorem reset_mem_wf : State.reset.mem.wf := Memory.wf_nil

theorem active_iff (s : State) : s.active = true ↔ s.status = .running ∧ s.H = false := by
  simp [State.active]

/-- A core that performs no cycle keeps its state. -/
theorem stepWith_inactive {c : ExtOperands} {s : State} (h : s.active = false) : stepWith c s = .next s := by
  simp [stepWith, h]

/-- Every outcome of a step: no cycle, a fault of the check or the fetch, or the fetched instruction. -/
theorem stepWith_cases (c : ExtOperands) (s : State) :
    (s.active = false ∧ stepWith c s = .next s) ∨
    (s.active = true ∧ ∃ f, fetch s = .error f ∧ stepWith c s = .next (s.raise f)) ∨
    (s.active = true ∧ ∃ v, fetch s = .ok v ∧ stepWith c s = exec (decodeWith c v) s) := by
  cases ha : s.active with
  | false => exact .inl ⟨rfl, stepWith_inactive ha⟩
  | true =>
    cases hf : fetch s with
    | error f => exact .inr (.inl ⟨rfl, f, rfl, by simp [stepWith, ha, hf]⟩)
    | ok v => exact .inr (.inr ⟨rfl, v, rfl, by simp [stepWith, ha, hf]⟩)

end Sys2Proof.Machine
end

