-- ==== Sys2Proof/Laws/Execute.lean ====
section
/-! SUPPORT. What the Execute steps can do, over all instructions: each whole-machine rule is read off these lemmas. -/

namespace Sys2Proof.Machine

/-- The Execute step of each instruction (40_cycle_engine.md R106). -/
def executeOf : Instr → Value → State → Effect
  | .hlt => executeHlt
  | .trap n => executeTrap n
  | .add n => executeAdd n
  | .sub n => executeSub n
  | .sta n => executeSta n
  | .useb => executeUseb
  | .mul => executeMul
  | .div => executeDiv
  | .ext n => executeExt n
  | .lda n => executeLda n
  | .bra n => executeBra n
  | .brz n => executeBrz n
  | .brp n => executeBrp n
  | .inp => executeInp
  | .out => executeOut
  | .uio n => executeUio n

/-- Every arm of `exec` is the common cycle around its Execute step. -/
theorem exec_eq_cycle (i : Instr) (s : State) : exec i s = cycle (decide (i = .useb)) (executeOf i) s := by
  cases i <;> rfl

/-- What an Execute step that gives a result may have changed. -/
structure ExecuteFrame (i : Instr) (w : Value) (s : State) (r : Value) (t : State) : Prop where
  A : t.A = s.A
  B : t.B = s.B
  status : t.status = s.status
  fault : t.fault = s.fault
  pc : t.pc = s.pc ∨ ∃ n, t.pc = branchTarget n
  flags : (t.Z = s.Z ∧ t.P = s.P) ∨ (t.Z = zeroFlag r ∧ t.P = positiveFlag r)
  U : t.U = if i = .useb then true else s.U
  H : t.H = if i = .hlt then true else s.H
  mem : t.mem = s.mem ∨ ∃ n, i = .sta n ∧ t.mem = s.mem.write (operandAddress n) w
  out : t.out = if i = .out then s.out ++ [w] else s.out
  inp : (i ≠ .inp ∧ t.inp = s.inp) ∨ (i = .inp ∧ s.inp = (r.val : Int) :: t.inp)

theorem withOperand_result {n : Operand} {s t : State} {g : Value → Value} {r : Value}
    (h : withOperand n s (fun m => flagged (g m) s) = .result r t) : t = s.setFlags r := by
  unfold withOperand at h
  split at h
  · simp only [flagged, Effect.result.injEq] at h
    obtain ⟨rfl, rfl⟩ := h
    rfl
  · cases h

/-- An Execute step that gives a result stays inside its frame. -/
theorem executeOf_frame {i : Instr} {w r : Value} {s t : State} (h : executeOf i w s = .result r t) :
    ExecuteFrame i w s r t := by
  cases i with
  | hlt => cases h; constructor <;> simp
  | trap n => cases h
  | add n => cases withOperand_result h; constructor <;> simp
  | sub n => cases withOperand_result h; constructor <;> simp
  | sta n => cases h; constructor <;> simp
  | useb => cases h; constructor <;> simp
  | mul => cases h; constructor <;> simp
  | div =>
    simp only [executeOf, executeDiv] at h
    split at h
    · cases h
    · cases h; constructor <;> simp
  | ext n => cases h
  | lda n => cases withOperand_result h; constructor <;> simp
  | bra n => cases h; constructor <;> simp
  | brz n =>
    simp only [executeOf, executeBrz] at h
    split at h <;> cases h <;> constructor <;> simp
  | brp n =>
    simp only [executeOf, executeBrp] at h
    split at h <;> cases h <;> constructor <;> simp
  | inp =>
    simp only [executeOf, executeInp, State.takeInput] at h
    split at h
    · cases h
    · next x u hx =>
      split at hx
      · cases hx
      · next y rest hs =>
        cases hx
        split at h
        · cases h
        · next hr =>
          have hv : ((trunc x).val : Int) = x := by rw [trunc_val]; omega
          cases h; constructor <;> simp [hs, hv]
  | out => cases h; constructor <;> simp
  | uio n => cases h

/-- A `raise` in Execute changes nothing; an INP's has consumed the integer it records. -/
theorem executeOf_raised {i : Instr} {w : Value} {s t : State} {f : FaultRecord}
    (h : executeOf i w s = .raised f t) :
    (i ≠ .inp ∧ t = s) ∨ (i = .inp ∧ ∃ x rest, s.inp = x :: rest ∧ t = { s with inp := rest } ∧
      f = ⟨.ioValueRange, x⟩ ∧ (x < 0 ∨ 999 < x)) := by
  have hw : ∀ (n : Operand) (g : Value → Value),
      withOperand n s (fun m => flagged (g m) s) = .raised f t → t = s := by
    intro n g h
    unfold withOperand at h
    split at h <;> cases h
    rfl
  cases i with
  | trap n => cases h; exact .inl ⟨by simp, rfl⟩
  | ext n => cases h; exact .inl ⟨by simp, rfl⟩
  | uio n => cases h; exact .inl ⟨by simp, rfl⟩
  | add n => exact .inl ⟨by simp, hw _ _ h⟩
  | sub n => exact .inl ⟨by simp, hw _ _ h⟩
  | lda n => exact .inl ⟨by simp, hw _ _ h⟩
  | div =>
    simp only [executeOf, executeDiv] at h
    split at h <;> cases h
    exact .inl ⟨by simp, rfl⟩
  | inp =>
    simp only [executeOf, executeInp, State.takeInput] at h
    split at h
    · cases h
    · next x u hx =>
      split at hx
      · cases hx
      · next y rest hs =>
        cases hx
        split at h <;> cases h
        next hr => exact .inr ⟨rfl, x, rest, hs, rfl, rfl, hr⟩
  | hlt => cases h
  | sta n => cases h
  | useb => cases h
  | mul => cases h
  | bra n => cases h
  | brz n => cases h
  | brp n => cases h
  | out => cases h

/-- Only an INP with nothing offered waits. -/
theorem executeOf_waits {i : Instr} {w : Value} {s : State} (h : executeOf i w s = .waits) :
    i = .inp ∧ s.inp = [] := by
  have hw : ∀ (n : Operand) (g : Value → Value), withOperand n s (fun m => flagged (g m) s) ≠ .waits := by
    intro n g h
    unfold withOperand at h
    split at h <;> cases h
  cases i with
  | inp =>
    refine ⟨rfl, ?_⟩
    simp only [executeOf, executeInp, State.takeInput] at h
    split at h
    · next hx =>
      split at hx
      · assumption
      · cases hx
    · split at h <;> cases h
  | add n => exact absurd h (hw _ _)
  | sub n => exact absurd h (hw _ _)
  | lda n => exact absurd h (hw _ _)
  | div =>
    simp only [executeOf, executeDiv] at h
    split at h <;> cases h
  | hlt => cases h
  | trap n => cases h
  | sta n => cases h
  | useb => cases h
  | mul => cases h
  | ext n => cases h
  | bra n => cases h
  | brz n => cases h
  | brp n => cases h
  | out => cases h
  | uio n => cases h

/-- Every way an instruction's cycle ends, with what its Execute step may have changed. -/
theorem exec_cases {i : Instr} {s t : State} (h : exec i s = .next t) :
    (∃ r u, ExecuteFrame i (if s.U then s.B else s.A) s.advance r u ∧
      t = (u.writeBack s.U (decide (i = .useb)) r).settleHalt) ∨
    (i ≠ .inp ∧ ∃ f, executeOf i (if s.U then s.B else s.A) s.advance = .raised f s.advance ∧
      t = s.advance.raise f) ∨
    (i = .inp ∧ ∃ x rest, s.inp = x :: rest ∧ (x < 0 ∨ 999 < x) ∧
      t = ({ s.advance with inp := rest } : State).raise ⟨.ioValueRange, x⟩) ∨
    (i = .inp ∧ s.inp = [] ∧ t = s) := by
  rw [exec_eq_cycle] at h
  rcases cycle_cases h with ⟨r, u, hb, ht⟩ | ⟨f, u, hb, ht⟩ | ⟨hb, ht⟩
  · exact .inl ⟨r, u, executeOf_frame hb, ht⟩
  · rcases executeOf_raised hb with ⟨hi, rfl⟩ | ⟨rfl, x, rest, hs, rfl, rfl, hx⟩
    · exact .inr (.inl ⟨hi, f, hb, ht⟩)
    · exact .inr (.inr (.inl ⟨rfl, x, rest, hs, hx, ht⟩))
  · obtain ⟨rfl, hi⟩ := executeOf_waits hb
    exact .inr (.inr (.inr ⟨rfl, hi, ht⟩))

end Sys2Proof.Machine
end

