-- ==== Sys2Proof/Laws/PerInstr.lean ====
section
/-! SUPPORT. Facts about every instruction as syntax, one lemma per constructor. -/

namespace Sys2Proof.Laws

/-- The class digit of an instruction's word (30_encoding.md R82). -/
def classOf : Instr → Fin 10
  | .hlt | .trap _ => 0
  | .add _ => 1
  | .sub _ => 2
  | .sta _ => 3
  | .useb | .mul | .div | .ext _ => 4
  | .lda _ => 5
  | .bra _ => 6
  | .brz _ => 7
  | .brp _ => 8
  | .inp | .out | .uio _ => 9

/-- The operand digits of an instruction's word (30_encoding.md R83, R84). -/
def operandIn (c : ExtOperands) : Instr → Operand
  | .hlt => 0
  | .useb => c.useb
  | .mul => c.mul
  | .div => c.div
  | .inp => 1
  | .out => 2
  | .trap n | .add n | .sub n | .sta n | .ext n | .lda n | .bra n | .brz n | .brp n | .uio n => n

@[simp] theorem opClass_wordOf (op : Fin 10) (n : Operand) : opClass (wordOf op n) = op := by
  apply Fin.ext
  show (100 * op.val + n.val) / 100 = op.val
  omega

@[simp] theorem operandOf_wordOf (op : Fin 10) (n : Operand) : operandOf (wordOf op n) = n := by
  apply Fin.ext
  show (100 * op.val + n.val) % 100 = n.val
  omega

/-- R81: a value is the word of its class and operand. -/
theorem wordOf_opClass_operandOf (v : Value) : wordOf (opClass v) (operandOf v) = v := by
  apply Fin.ext
  show 100 * (v.val / 100) + v.val % 100 = v.val
  omega

/-- Field extraction undoes encoding (30_encoding.md R81): the decoder reads the class and the operand the encoder wrote. -/
def EncodedFields.Statement (i : Instr) : Prop :=
  ∀ c : ExtOperands, opClass (encodeWith c i) = classOf i ∧ operandOf (encodeWith c i) = operandIn c i

theorem EncodedFields.hlt : EncodedFields.Statement .hlt := fun _ => ⟨opClass_wordOf _ _, operandOf_wordOf _ _⟩
theorem EncodedFields.trap (n : Operand) : EncodedFields.Statement (.trap n) :=
  fun _ => ⟨opClass_wordOf _ _, operandOf_wordOf _ _⟩
theorem EncodedFields.add (n : Operand) : EncodedFields.Statement (.add n) :=
  fun _ => ⟨opClass_wordOf _ _, operandOf_wordOf _ _⟩
theorem EncodedFields.sub (n : Operand) : EncodedFields.Statement (.sub n) :=
  fun _ => ⟨opClass_wordOf _ _, operandOf_wordOf _ _⟩
theorem EncodedFields.sta (n : Operand) : EncodedFields.Statement (.sta n) :=
  fun _ => ⟨opClass_wordOf _ _, operandOf_wordOf _ _⟩
theorem EncodedFields.useb : EncodedFields.Statement .useb := fun _ => ⟨opClass_wordOf _ _, operandOf_wordOf _ _⟩
theorem EncodedFields.mul : EncodedFields.Statement .mul := fun _ => ⟨opClass_wordOf _ _, operandOf_wordOf _ _⟩
theorem EncodedFields.div : EncodedFields.Statement .div := fun _ => ⟨opClass_wordOf _ _, operandOf_wordOf _ _⟩
theorem EncodedFields.ext (n : Operand) : EncodedFields.Statement (.ext n) :=
  fun _ => ⟨opClass_wordOf _ _, operandOf_wordOf _ _⟩
theorem EncodedFields.lda (n : Operand) : EncodedFields.Statement (.lda n) :=
  fun _ => ⟨opClass_wordOf _ _, operandOf_wordOf _ _⟩
theorem EncodedFields.bra (n : Operand) : EncodedFields.Statement (.bra n) :=
  fun _ => ⟨opClass_wordOf _ _, operandOf_wordOf _ _⟩
theorem EncodedFields.brz (n : Operand) : EncodedFields.Statement (.brz n) :=
  fun _ => ⟨opClass_wordOf _ _, operandOf_wordOf _ _⟩
theorem EncodedFields.brp (n : Operand) : EncodedFields.Statement (.brp n) :=
  fun _ => ⟨opClass_wordOf _ _, operandOf_wordOf _ _⟩
theorem EncodedFields.inp : EncodedFields.Statement .inp := fun _ => ⟨opClass_wordOf _ _, operandOf_wordOf _ _⟩
theorem EncodedFields.out : EncodedFields.Statement .out := fun _ => ⟨opClass_wordOf _ _, operandOf_wordOf _ _⟩
theorem EncodedFields.uio (n : Operand) : EncodedFields.Statement (.uio n) :=
  fun _ => ⟨opClass_wordOf _ _, operandOf_wordOf _ _⟩

end Sys2Proof.Laws
end

