-- ==== Sys2Proof/Laws/Run.lean ====
section
/-! SUPPORT. Runs of several steps, one step at a time. -/

namespace Sys2Proof.Machine

@[simp] theorem run_zero (s : State) : Sys2Proof.core.run 0 s = .next s := rfl

/-- A run of any machine goes on from the state its first step answers. -/
theorem coreRun_succ_of_next (M : Host.Core) {s t : M.State} (k : Nat) (h : M.step s = .next t) :
    M.run (k + 1) s = M.run k t := by
  simp only [Host.Core.run, h]

theorem run_succ_of_next {s t : State} (k : Nat) (h : step s = .next t) :
    Sys2Proof.core.run (k + 1) s = Sys2Proof.core.run k t :=
  coreRun_succ_of_next Sys2Proof.core k h

/-- A property of states that every step keeps holds after any number of steps. -/
theorem run_induction {p : State → Prop} (hstep : ∀ s t, p s → step s = .next t → p t)
    (hnext : ∀ s, ∃ t, step s = .next t) :
    ∀ (k : Nat) {s t : State}, p s → Sys2Proof.core.run k s = .next t → p t := by
  intro k
  induction k with
  | zero => intro s t hp h; cases h; exact hp
  | succ k ih =>
    intro s t hp h
    obtain ⟨u, hu⟩ := hnext s
    rw [run_succ_of_next k hu] at h
    exact ih (hstep s u hp hu) h

end Sys2Proof.Machine
end

