-- ==== Sys2Proof/Tests/Slice0.lean ====
section
/-! SUPPORT. The model's own tests. Expected results are those of spec/95_test_vectors.md (the vector's id stands in the
comment), of the encodings of 30_encoding.md R85, or follow from a rule by hand. The witnesses at the end meet the
hypotheses of the obligations. -/

namespace Sys2Proof.Tests

open Sys2Proof.Machine

/-! ### Well-formedness refuses each ill-formed shape (R83, R86) -/

theorem test_wf_trap_zero : (Instr.trap 0).wellFormed Config.extOperands = false := by decide
theorem test_wf_ext_useb : (Instr.ext 1).wellFormed Config.extOperands = false := by decide
theorem test_wf_ext_mul : (Instr.ext 2).wellFormed Config.extOperands = false := by decide
theorem test_wf_ext_div : (Instr.ext 3).wellFormed Config.extOperands = false := by decide
theorem test_wf_uio_in : (Instr.uio 1).wellFormed Config.extOperands = false := by decide
theorem test_wf_uio_out : (Instr.uio 2).wellFormed Config.extOperands = false := by decide
theorem test_wf_other_operands : (Instr.ext 1).wellFormed ⟨10, 20, 30⟩ = true := by decide
theorem test_wf_memory_unsorted : ¬ Memory.wf [(3, 1), (2, 1)] := by decide
theorem test_wf_memory_address : ¬ Memory.wf [(1000, 1)] := by decide

/-! ### Decoding: words written out from R85's patterns (V30) -/

theorem test_decode_class0 : decode 0 = .hlt ∧ decode 1 = .trap 1 ∧ decode 99 = .trap 99 := by decide
theorem test_decode_class1 : decode 100 = .add 0 ∧ decode 199 = .add 99 := by decide
theorem test_decode_class2 : decode 250 = .sub 50 := by decide
theorem test_decode_class3 : decode 399 = .sta 99 := by decide
theorem test_decode_class4 : decode 401 = .useb ∧ decode 402 = .mul ∧ decode 403 = .div := by decide
theorem test_decode_class4_ext : decode 400 = .ext 0 ∧ decode 404 = .ext 4 ∧ decode 499 = .ext 99 := by decide
theorem test_decode_class5 : decode 500 = .lda 0 ∧ decode 599 = .lda 99 := by decide
theorem test_decode_class6 : decode 600 = .bra 0 ∧ decode 699 = .bra 99 := by decide
theorem test_decode_class7 : decode 704 = .brz 4 := by decide
theorem test_decode_class8 : decode 800 = .brp 0 ∧ decode 899 = .brp 99 := by decide
theorem test_decode_class9 : decode 901 = .inp ∧ decode 902 = .out := by decide
theorem test_decode_class9_uio : decode 900 = .uio 0 ∧ decode 903 = .uio 3 ∧ decode 999 = .uio 99 := by decide
theorem test_decode_other_operands : decodeWith ⟨10, 20, 30⟩ 420 = .mul ∧ decodeWith ⟨10, 20, 30⟩ 402 = .ext 2 := by decide
theorem test_decode_rejects : decodeNat Config.extOperands 1000 = .error (.notAValue 1000) := rfl
theorem test_encode_words : encode (.brp 20) = 820 ∧ encode .out = 902 ∧ encode (.ext 50) = 450 := by decide

/-! ### One step each -/

/-- The convention of 95_test_vectors.md Part 2: the word in cell 50 and the counter at 50, over the reset state. -/
def at50 (m : Memory) : State := { State.reset with pc := 50, mem := m }

/-- The state a step answers. -/
def after : Host.Outcome State Fault Refusal → Option State
  | .next t => some t
  | .fault _ => none
  | .refused _ => none

/-- A, B, U, Z, P and pc after a step. -/
def regs (s : State) : Option (Value × Value × Bool × Bool × Bool × Int) :=
  (after (step s)).map fun t => (t.A, t.B, t.U, t.Z, t.P, t.pc)

/-- Status, fault record and pc after a step. -/
def failed (s : State) : Option (Status × Option FaultRecord × Int) :=
  (after (step s)).map fun t => (t.status, t.fault, t.pc)

/-- V40.1 -/
theorem test_trunc : trunc (-100) = 900 ∧ trunc (-1000) = 0 ∧ trunc 998001 = 1 ∧ trunc (-999) = 1 := by decide
/-- V40.2 -/
theorem test_flags : (zeroFlag 0, positiveFlag 0) = (true, true) ∧ (zeroFlag 499, positiveFlag 499) = (false, true) ∧
    (zeroFlag 500, positiveFlag 500) = (false, false) := by decide

/-- V41.3 -/
theorem test_hlt_clears_U : regs { at50 [(50, 0)] with U := true, A := 5, B := 6 } =
    some (5, 6, false, false, false, 51) := by decide
/-- V41.2 -/
theorem test_hlt_at_999 : failed { at50 [(999, 0)] with pc := 999 } = some (.halted, none, 0) := by decide
/-- V41.6 -/
theorem test_trap : failed (at50 [(50, 7)]) = some (.faulted, some ⟨.unknownTrap, 7⟩, 51) := by decide
/-- V42.3 -/
theorem test_add_wraps : regs { at50 [(10, 999), (50, 110)] with A := 999 } =
    some (998, 0, false, false, false, 51) := by decide
/-- V42.7 -/
theorem test_add_auxiliary : regs { at50 [(10, 7), (50, 110)] with U := true, B := 10, A := 5 } =
    some (5, 17, false, false, true, 51) := by decide
/-- V42.10 -/
theorem test_sub_negative : regs { at50 [(10, 800), (50, 210)] with A := 700 } =
    some (900, 0, false, false, false, 51) := by decide
/-- V42.17 -/
theorem test_sub_auxiliary : regs { at50 [(10, 5), (50, 210)] with U := true, B := 3, A := 100 } =
    some (100, 998, false, false, false, 51) := by decide
/-- V43.4 -/
theorem test_sta_auxiliary : (after (step { at50 [(50, 345)] with U := true, B := 77, A := 5 })).map
    (fun t => (t.mem, t.A, t.B, t.U)) = some ([(45, 77), (50, 345)], 5, 77, false) := by decide
/-- V43.5 -/
theorem test_sta_own_cell : (after (step { at50 [(50, 350)] with A := 902 })).map (fun t => (t.mem, t.pc)) =
    some ([(50, 902)], 51) := by decide
/-- V43.9 -/
theorem test_lda_auxiliary : regs { at50 [(20, 42), (50, 520)] with U := true, A := 5, B := 6 } =
    some (5, 42, false, false, true, 51) := by decide
/-- V43.10 -/
theorem test_lda_unmapped : failed { at50 [(50, 520)] with A := 7, Z := true, P := true } =
    some (.faulted, some ⟨.unmappedMemory, 20⟩, 51) := by decide
/-- V44.1 -/
theorem test_useb : regs { at50 [(50, 401)] with A := 5, B := 6, Z := true, P := true } =
    some (5, 6, true, true, true, 51) := by decide
/-- V44.3 -/
theorem test_useb_after_useb : regs { at50 [(50, 401)] with U := true, A := 1, B := 42 } =
    some (42, 42, true, false, false, 51) := by decide
/-- V44.8 -/
theorem test_mul_to_zero : regs { at50 [(50, 402)] with B := 25, A := 40 } =
    some (0, 25, false, true, true, 51) := by decide
/-- V44.10 -/
theorem test_mul_auxiliary : regs { at50 [(50, 402)] with U := true, B := 7, A := 3 } =
    some (3, 49, false, false, true, 51) := by decide
/-- V44.11 -/
theorem test_div : regs { at50 [(50, 403)] with B := 100, A := 7 } = some (14, 100, false, false, true, 51) := by decide
/-- V44.19 -/
theorem test_div_by_zero : failed { at50 [(50, 403)] with U := true, B := 0, A := 4 } =
    some (.faulted, some ⟨.divisionByZero, 0⟩, 51) := by decide
/-- V44.22 -/
theorem test_ext : failed (at50 [(50, 450)]) = some (.faulted, some ⟨.unknownExtendedInstruction, 50⟩, 51) := by decide
/-- V45.2 -/
theorem test_bra_to_itself : regs (at50 [(50, 650)]) = some (0, 0, false, false, false, 50) := by decide
/-- V45.10 -/
theorem test_bra_clears_U : regs { at50 [(50, 612)] with U := true, A := 5, B := 6 } =
    some (5, 6, false, false, false, 12) := by decide
/-- V45.4 -/
theorem test_brz_taken : regs { at50 [(50, 704)] with Z := true } = some (0, 0, false, true, false, 4) := by decide
/-- V45.6 -/
theorem test_brz_at_reset : regs { State.reset with mem := [(0, 703)] } = some (0, 0, false, false, false, 1) := by decide
/-- V45.8 -/
theorem test_brp_on_zero : regs { at50 [(50, 820)] with Z := true, P := true } =
    some (0, 0, false, true, true, 20) := by decide
/-- V45.9 -/
theorem test_brp_not_taken : regs (at50 [(50, 820)]) = some (0, 0, false, false, false, 51) := by decide
/-- V46.8 -/
theorem test_inp_auxiliary : regs { at50 [(50, 901)] with U := true, A := 3, inp := [8] } =
    some (3, 8, false, false, true, 51) := by decide
/-- V46.7 -/
theorem test_inp_negative : failed { at50 [(50, 901)] with inp := [-1, 5] } =
    some (.faulted, some ⟨.ioValueRange, -1⟩, 51) := by decide
/-- V46.12 -/
theorem test_out_auxiliary : (after (step { at50 [(50, 902)] with U := true, B := 7, A := 3, out := [1] })).map
    (fun t => (t.out, t.A, t.B, t.U)) = some ([1, 7], 3, 7, false) := by decide
/-- V46.10 -/
theorem test_out_flags : regs { at50 [(50, 902)] with A := 900 } = some (900, 0, false, false, false, 51) := by decide
/-- V46.13 -/
theorem test_uio_zero : failed (at50 [(50, 900)]) = some (.faulted, some ⟨.unknownIOInstruction, 0⟩, 51) := by decide
/-- V60.1 -/
theorem test_pc_1000 : failed { State.reset with pc := 1000, mem := [(0, 0)] } =
    some (.faulted, some ⟨.outOfRangeProgramCounter, 1000⟩, 1000) := by decide
/-- V60.4 -/
theorem test_fetch_unmapped : failed { State.reset with pc := 5 } =
    some (.faulted, some ⟨.unmappedMemory, 5⟩, 5) := by decide
/-- The host's two questions, on the word 599: the decoder reads LDA 99 and the first step runs it. -/
theorem test_withFetchWord : decodeTableWord 16 599 = some (.lda 99) ∧
    failed (State.reset.withFetchWord 16 599) = some (.faulted, some ⟨.unmappedMemory, 99⟩, 1) := by decide

/-! ### Witnesses: states and operands that meet the hypotheses of each obligation, clause by clause -/

/-- An active state: memory with cells 10 and 50 mapped, both registers non-zero, two integers offered. -/
def sample : State := { at50 [(10, 250), (50, 902)] with A := 300, B := 12, inp := [42, 1000] }

/-- The one hypothesis of HltHalts, StaStores, UsebSelectsAuxiliary, BraJumps and OutEmitsTheWorkingValue. -/
theorem sample_active : sample.Active := by decide

theorem witness_distinct_operands : Config.extOperands.distinct ∧ ExtOperands.distinct ⟨0, 99, 50⟩ := by decide
theorem witness_DecodeEncodeRoundTrip : Config.extOperands.distinct ∧
    (Instr.ext 99).wellFormed Config.extOperands = true ∧ (Instr.trap 1).wellFormed Config.extOperands = true ∧
    (Instr.uio 0).wellFormed Config.extOperands = true := by decide
theorem witness_StepRunsDecodedInstruction :
    sample.Active ∧ sample.pcInRange ∧ sample.mem.read sample.pc.toNat = some 902 := by decide
theorem witness_StepRunsDecodedInstruction_at_999 :
    let s := { State.reset with pc := 999, mem := [(999, 0)] }
    s.Active ∧ s.pcInRange ∧ s.mem.read s.pc.toNat = some 0 := by decide
theorem witness_StoppedCoreKeepsItsState : { sample with status := .halted }.status ≠ .running := by decide
theorem witness_OutOfRangeCounterFaults :
    { sample with pc := 1000 }.Active ∧ ¬ { sample with pc := 1000 }.pcInRange ∧ ¬ { sample with pc := -1 }.pcInRange := by decide
theorem witness_UnmappedFetchFaults : State.reset.Active ∧ State.reset.pcInRange ∧
    State.reset.mem.read State.reset.pc.toNat = none := by decide
theorem witness_ExtensionPointsFault : sample.Active ∧ (Instr.trap 99).wellFormed Config.extOperands = true ∧
    (Instr.ext 0).wellFormed Config.extOperands = true ∧ (Instr.uio 3).wellFormed Config.extOperands = true := by decide
theorem witness_AddResult : sample.Active ∧ sample.mem.read (10 : Operand).val = some 250 ∧
    (550 : Value).val = ((if sample.U then sample.B else sample.A).val + (250 : Value).val) % 1000 ∧
    sample.mem.read (99 : Operand).val = none := by decide
theorem witness_SubResult : sample.Active ∧ sample.mem.read (10 : Operand).val = some 250 ∧
    ((50 : Value).val : Int) = ((if sample.U then sample.B else sample.A).val - (250 : Value).val : Int) % 1000 ∧
    sample.mem.read (0 : Operand).val = none := by decide
theorem witness_LdaLoads : sample.Active ∧ sample.mem.read (10 : Operand).val = some 250 ∧
    sample.mem.read (99 : Operand).val = none := by decide
theorem witness_MulResult : sample.Active ∧
    (600 : Value).val = (sample.B.val * (if sample.U then sample.B else sample.A).val) % 1000 := by decide
theorem witness_DivResult : sample.Active ∧ (if sample.U then sample.B else sample.A).val ≠ 0 ∧
    (0 : Value).val = sample.B.val / (if sample.U then sample.B else sample.A).val := by decide
theorem witness_DivResult_zero : State.reset.Active ∧ (if State.reset.U then State.reset.B else State.reset.A).val = 0 := by decide
theorem witness_BrzJumpsOnZeroFlag : { sample with Z := true }.Active ∧ { sample with Z := true }.Z = true ∧
    sample.Active ∧ sample.Z = false := by decide
theorem witness_BrpJumpsOnPositiveFlag : { sample with P := true }.Active ∧ { sample with P := true }.P = true ∧
    sample.Active ∧ sample.P = false := by decide
theorem witness_InpReadsTheNextInteger : sample.Active ∧ sample.inp = ((42 : Value).val : Int) :: [1000] ∧
    { sample with inp := [999] }.inp = ((999 : Value).val : Int) :: [] := by decide
theorem witness_InpReadsTheNextInteger_range : { sample with inp := [1000] }.Active ∧
    { sample with inp := [1000] }.inp = 1000 :: [] ∧ ((1000 : Int) < 0 ∨ 999 < (1000 : Int)) ∧
    { sample with inp := [-1] }.inp = (-1) :: [] ∧ ((-1 : Int) < 0 ∨ 999 < (-1 : Int)) := by decide
theorem witness_InpReadsTheNextInteger_waits : State.reset.Active ∧ State.reset.inp = [] := by decide
theorem witness_WaitingInputResumes : State.reset.Active ∧ State.reset.inp = [] := by decide
theorem witness_SetFlagsOutcomes : (0 : Value).val = 0 ∧ 1 ≤ (1 : Value).val ∧ (499 : Value).val ≤ 499 ∧
    500 ≤ (500 : Value).val := by decide
theorem witness_CanonicalMemories : Memory.wf [(0, 999), (999, 0)] ∧
    ∀ a, Memory.read [(0, 999), (999, 0)] a = Memory.read [(0, 999), (999, 0)] a := ⟨by decide, fun _ => rfl⟩
theorem witness_HostSeesRegisters : sample.status = .running ∧ { sample with status := .faulted }.status = .faulted ∧
    { sample with status := .halted }.status = .halted := by decide
theorem sample_coherent : sample.Coherent :=
  ⟨by decide, fun _ => by decide, fun h => (by cases h), fun h => (by cases h)⟩
theorem witness_StepKeepsCoherence : sample.Coherent ∧ ∃ t, step sample = .next t := ⟨sample_coherent, _, rfl⟩
theorem witness_StartIsCoherent : Memory.wf [(0, 0), (999, 999)] := by decide
theorem witness_CounterStaysInRange :
    ∃ t, step sample = .next t ∧ sample.Active ∧ t.status ≠ .faulted ∧ sample.pcInRange :=
  ⟨_, rfl, by decide, by decide, by decide⟩
theorem witness_OutOfRangeFaultOnlyFromTheStartAddress :
    ∃ t, Sys2Proof.core.run 1 (State.reset.start [(0, 0)] 1000 []) = .next t ∧
      t.fault = some ⟨.outOfRangeProgramCounter, 1000⟩ := ⟨_, rfl, rfl⟩
theorem witness_OnlyStoreChangesMemory :
    ∃ t, exec (.sta 10) sample = .next t ∧ ∀ n, Instr.sta 10 = .sta n → (50 : Nat) ≠ operandAddress n :=
  ⟨_, rfl, fun n h => by cases h; decide⟩
theorem witness_StepKeepsUpperCells : ∃ t, step { sample with mem := [(50, 310), (100, 1)] } = .next t ∧ 100 ≤ 100 ∧
    Memory.read [(50, 310), (100, 1)] 50 ≠ none := ⟨_, rfl, by decide, by decide⟩
theorem witness_ChannelsAreUsed : (∃ t, exec .inp sample = .next t) ∧ (∃ t, exec .out sample = .next t) ∧
    Instr.out ≠ .inp ∧ Instr.inp ≠ .out := ⟨⟨_, rfl⟩, ⟨_, rfl⟩, by decide, by decide⟩
theorem witness_OutputOnlyGrows : ∃ t, Sys2Proof.core.run 1 sample = .next t ∧ t.out = [300] := ⟨_, rfl, rfl⟩
theorem witness_FlagsDescribe_kept : sample.Active ∧ (∃ t, exec (.trap 1) sample = .next t ∧ t.status = .faulted) ∧
    (∃ t, exec .hlt sample = .next t) ∧ ¬ sample.waitsFor .hlt ∧ ¬ sample.waitsFor (.trap 1) :=
  ⟨by decide, ⟨_, rfl, rfl⟩, ⟨_, rfl⟩, by decide, by decide⟩
theorem witness_FlagsDescribe_written : sample.Active ∧
    (∃ t, exec .inp sample = .next t ∧ t.status ≠ .faulted) ∧ (∃ t, exec (.sta 9) sample = .next t ∧ t.status ≠ .faulted) ∧
    ¬ sample.waitsFor .inp ∧ ¬ sample.waitsFor (.sta 9) :=
  ⟨by decide, ⟨_, rfl, by decide⟩, ⟨_, rfl, by decide⟩, by decide, by decide⟩
theorem witness_OneRegisterIsWritten : (∃ t, exec (.lda 10) sample = .next t) ∧ sample.U = false ∧
    (∃ t, exec (.lda 10) { sample with U := true } = .next t) ∧ Instr.lda 10 ≠ .useb :=
  ⟨⟨_, rfl⟩, rfl, ⟨_, rfl⟩, by decide⟩
theorem witness_SelectionLasts : sample.Active ∧ (∃ t, exec .useb sample = .next t ∧ t.status ≠ .faulted) ∧
    ¬ sample.waitsFor .useb ∧ (∃ t, exec (.bra 0) sample = .next t ∧ t.status ≠ .faulted) ∧ ¬ sample.waitsFor (.bra 0) :=
  ⟨by decide, ⟨_, rfl, by decide⟩, by decide, ⟨_, rfl, by decide⟩, by decide⟩
theorem witness_OnlyHltHalts : (∃ t, exec .hlt sample = .next t) ∧ sample.H = false ∧ sample.Active ∧
    (∃ t, exec .out { sample with H := true } = .next t) := ⟨⟨_, rfl⟩, rfl, by decide, ⟨_, rfl⟩⟩
theorem witness_WhichInstructionRaises : sample.Active ∧
    ∃ t, exec (.add 99) sample = .next t ∧ t.status = .faulted := ⟨by decide, _, rfl, rfl⟩
theorem witness_FaultsArePrecise :
    (∃ t, step { sample with mem := [(50, 7)] } = .next t ∧ t.status = .faulted) ∧
    (∃ t, step { sample with mem := [] } = .next t ∧ t.status = .faulted) ∧
    { sample with mem := [(50, 7)] }.pcInRange ∧ Memory.read [(50, 7)] 50 ≠ none ∧ Memory.read [] 50 = none :=
  ⟨⟨_, rfl, rfl⟩, ⟨_, rfl, rfl⟩, by decide, by decide, by decide⟩
theorem witness_StoreIsSeen : sample.Active ∧ (sample.pc + 1) % 1000 = ((51 : Operand).val : Int) := by decide
theorem witness_SubCompares : sample.Active ∧ sample.mem.read (10 : Operand).val = some 250 ∧
    -500 ≤ ((if sample.U then sample.B else sample.A).val - (250 : Value).val : Int) ∧
    ((if sample.U then sample.B else sample.A).val - (250 : Value).val : Int) ≤ 499 := by decide
theorem witness_AddIsSigned : { sample with A := 999 }.Active ∧
    { sample with A := 999 }.mem.read (10 : Operand).val = some 250 ∧
    -500 ≤ signed (999 : Value) + signed (250 : Value) ∧ signed (999 : Value) + signed (250 : Value) ≤ 499 := by decide
theorem witness_AuxiliaryIsRead : sample.U = false ∧ Instr.add 10 ≠ .mul ∧ Instr.add 10 ≠ .div ∧
    ∃ t, exec (.add 10) sample = .next t := ⟨rfl, by decide, by decide, _, rfl⟩
theorem witness_UpperCells : (∀ a, a < 100 → Memory.read ((sample.mem.write 100 5)) a = sample.mem.read a) ∧
    ∃ t, exec (.add 10) sample = .next t :=
  ⟨fun a h => Memory.read_write_other _ _ (by omega), _, rfl⟩
theorem witness_StepKeepsCounterInRange : sample.pcInRange ∧
    (∀ x, sample.fault ≠ some ⟨.outOfRangeProgramCounter, x⟩) ∧ ∃ t, step sample = .next t :=
  ⟨by decide, fun _ h => (by cases h), _, rfl⟩

end Sys2Proof.Tests
end

