-- ==== Sys2Proof/Proofs/Trunc.lean ====
section
/-! Truncation is determined by the residue class modulo 1000 (00_scope.md R8). -/

namespace Sys2Proof.Machine

/-- Two integers truncate to one value exactly when 1000 divides their difference. -/
theorem trunc_eq_trunc_iff (m n : Int) : trunc m = trunc n ↔ (1000 : Int) ∣ m - n :=
  calc trunc m = trunc n
    _ ↔ ((trunc m).val : Int) = (trunc n).val := by rw [Fin.ext_iff, Int.natCast_inj]
    _ ↔ m % 1000 = n % 1000 := by rw [trunc_val, trunc_val]
    _ ↔ (1000 : Int) ∣ m - n := by
      rw [Int.emod_eq_emod_iff_emod_sub_eq_zero, Int.dvd_iff_emod_eq_zero]

/-- Settles O25: a value is its own truncation, so `trunc n = r` compares the residues of `n` and `r`. -/
theorem truncIsTheNonNegativeRemainder : Obligations.TruncIsTheNonNegativeRemainder := by
  unfold Obligations.TruncIsTheNonNegativeRemainder
  intro n r
  have residues := trunc_eq_trunc_iff n r.val
  rwa [trunc_of_value] at residues

end Sys2Proof.Machine
end

section
/-! The state along instructions, steps and runs (10_state.md): canonical memory (R27), status, halt flag and fault
record (R26, R28, R29), the counter (R35), the output (R30), and what B takes part in (R21). -/

namespace Sys2Proof.Machine

/-! ### Start and reset -/

/-- Settles O9: a start is a record update of `State.reset`, whose fields are R34's table. -/
theorem startGivesResetValues : Obligations.StartGivesResetValues := by
  unfold Obligations.StartGivesResetValues
  exact ⟨fun _ _ _ _ => rfl, fun _ => rfl, by decide⟩

/-- A start is Running with no halt flag and no record, so only its memory has to be canonical. -/
theorem State.start_coherent (s : State) {mem0 : Memory} (a : Int) (inputs : List Int) (hm : mem0.wf) :
    (s.start mem0 a inputs).Coherent where
  memory := hm
  running _ := ⟨rfl, rfl⟩
  halted h := by cases h
  faulted h := by cases h

/-- Settles O31: `State.reset` is the start with the empty memory. -/
theorem startIsCoherent : Obligations.StartIsCoherent := by
  unfold Obligations.StartIsCoherent
  exact ⟨State.reset.start_coherent 0 [] Memory.wf_nil, fun s _ a inputs hm => s.start_coherent a inputs hm⟩

/-! ### Canonical memories -/

/-- In a canonical memory the listed cells are exactly the readable ones. -/
theorem Memory.wf.mem_iff_read {m : Memory} (hm : m.wf) (a : Nat) (v : Value) :
    (a, v) ∈ m ↔ m.read a = some v := by
  obtain ⟨sorted, -⟩ := hm
  induction m with
  | nil => simp
  | cons c rest ih =>
    obtain ⟨b, u⟩ := c
    obtain ⟨below, sortedRest⟩ := List.pairwise_cons.mp sorted
    by_cases hab : a = b
    · have notInRest : (a, v) ∉ rest := fun h => absurd (below _ h) (by simp [hab])
      subst hab
      simp [Memory.read, notInRest, eq_comm]
    · simpa [Memory.read, hab] using ih sortedRest

/-- Settles O27: such memories list the same cells, and a strictly rising list is determined by its members. -/
theorem canonicalMemoriesAreDeterminedByTheirCells :
    Obligations.CanonicalMemoriesAreDeterminedByTheirCells := by
  unfold Obligations.CanonicalMemoriesAreDeterminedByTheirCells
  intro m m' hm hm' hread
  have nodup : ∀ {l : Memory}, l.wf → l.Nodup := fun hl => hl.1.imp fun h heq => absurd (heq ▸ h) (lt_irrefl _)
  have sameCells : m.Perm m' := (List.perm_ext_iff_of_nodup (nodup hm) (nodup hm')).mpr fun (a, v) => by
    rw [hm.mem_iff_read, hm'.mem_iff_read, hread]
  exact sameCells.eq_of_pairwise (fun _ _ _ _ h h' => absurd h (Nat.lt_asymm h')) hm.1 hm'.1

/-! ### What an instruction does to each part of the state -/

section Exec

variable {i : Instr} {s t : State}

/-- Memory stays, but for the one write of a STA. -/
theorem exec_mem (h : exec i s = .next t) :
    t.mem = s.mem ∨ ∃ n v, i = .sta n ∧ t.mem = s.mem.write (operandAddress n) v := by
  rcases exec_cases h with ⟨r, u, frame, rfl⟩ | ⟨-, f, -, rfl⟩ | ⟨-, x, rest, -, -, rfl⟩ | ⟨-, -, rfl⟩
  · simpa using frame.mem.imp_right fun ⟨n, hi, hmem⟩ => ⟨n, hi, _, hmem⟩
  all_goals exact .inl rfl

theorem exec_keeps_mem_wf (h : exec i s = .next t) (hm : s.mem.wf) : t.mem.wf := by
  rcases exec_mem h with hmem | ⟨n, v, -, hmem⟩ <;> rw [hmem]
  · exact hm
  · exact Memory.write_keeps_wf v hm (n.isLt.trans (by decide))

/-- The counter after an instruction is the advanced one or a branch target, both in range; a waiting INP keeps it. -/
theorem exec_keeps_pcInRange (h : exec i s = .next t) (hpc : s.pcInRange) : t.pcInRange := by
  rcases exec_cases h with ⟨r, u, frame, rfl⟩ | ⟨-, f, -, rfl⟩ | ⟨-, x, rest, -, -, rfl⟩ | ⟨-, -, rfl⟩
  · have hu : u.pcInRange := by
      rcases frame.pc with hu | ⟨n, hu⟩ <;> simp only [State.pcInRange, hu]
      · exact advance_pc_range s
      · unfold branchTarget; omega
    simpa [State.pcInRange] using hu
  · exact advance_pc_range s
  · exact advance_pc_range s
  · exact hpc

theorem exec_appends_out (h : exec i s = .next t) : ∃ emitted, t.out = s.out ++ emitted := by
  rcases exec_cases h with ⟨r, u, frame, rfl⟩ | ⟨-, f, -, rfl⟩ | ⟨-, x, rest, -, -, rfl⟩ | ⟨-, -, rfl⟩
  · by_cases hi : i = .out
    · exact ⟨[_], by simpa [hi] using frame.out⟩
    · exact ⟨[], by simpa [hi] using frame.out⟩
  all_goals exact ⟨[], (List.append_nil _).symm⟩

/-- The halt flag after an instruction is the one before, or set by HLT. -/
theorem exec_H (h : exec i s = .next t) : t.H = if i = .hlt then true else s.H := by
  rcases exec_cases h with ⟨r, u, frame, rfl⟩ | ⟨-, f, raised, rfl⟩ | ⟨rfl, x, rest, -, -, rfl⟩ | ⟨rfl, -, rfl⟩
  · simpa using frame.H
  · have : i ≠ .hlt := by rintro rfl; cases raised
    simp [this]
  · rfl
  · rfl

/-- No Execute step raises the fault of the counter check (R182). -/
theorem executeOf_raised_kind {w : Value} {f : FaultRecord} (h : executeOf i w s = .raised f t) :
    f.kind ≠ .outOfRangeProgramCounter := by
  have operandRead : ∀ (n : Operand) (g : Value → Value),
      withOperand n s (fun m => flagged (g m) s) = .raised f t → f.kind ≠ .outOfRangeProgramCounter := by
    intro n g h
    cases hm : s.mem.read n.val with
    | some m => rw [withOperand_mapped hm] at h; cases h
    | none => rw [withOperand_unmapped hm] at h; cases h; simp
  cases i with
  | trap n => cases h; simp
  | ext n => cases h; simp
  | uio n => cases h; simp
  | add n => exact operandRead _ _ h
  | sub n => exact operandRead _ _ h
  | lda n => exact operandRead _ _ h
  | div =>
    simp only [executeOf, executeDiv] at h
    split at h <;> cases h
    simp
  | inp =>
    rcases executeOf_raised h with ⟨hi, -⟩ | ⟨-, x, rest, -, -, rfl, -⟩
    · exact absurd rfl hi
    · simp
  | hlt => cases h
  | sta n => cases h
  | useb => cases h
  | mul => cases h
  | bra n => cases h
  | brz n => cases h
  | brp n => cases h
  | out => cases h

/-- How an instruction leaves status and fault record: it is not the fault of the counter check that it raises, and HLT
raises none. -/
theorem exec_status_fault (hs : s.Active) (h : exec i s = .next t) :
    (t.status = (if i = .hlt then .halted else .running) ∧ t.fault = s.fault) ∨
    (i ≠ .hlt ∧ t.status = .faulted ∧ ∃ f, t.fault = some f ∧ f.kind ≠ .outOfRangeProgramCounter) := by
  obtain ⟨running, noHalt⟩ := hs
  rcases exec_cases h with ⟨r, u, frame, rfl⟩ | ⟨-, f, raised, rfl⟩ | ⟨rfl, x, rest, -, -, rfl⟩ | ⟨rfl, -, rfl⟩
  · exact .inl (by simp [frame.status, frame.fault, frame.H, running, noHalt])
  · exact .inr ⟨(by rintro rfl; cases raised), rfl, f, rfl, executeOf_raised_kind raised⟩
  · exact .inr ⟨by simp, rfl, _, rfl, by simp⟩
  · exact .inl ⟨running, rfl⟩

end Exec

/-- Settles O34: a cell other than the stored one reads as before. -/
theorem onlyStoreChangesMemory : Obligations.OnlyStoreChangesMemory := by
  unfold Obligations.OnlyStoreChangesMemory
  intro i s t a h notStored
  rcases exec_mem h with hmem | ⟨n, v, hi, hmem⟩ <;> rw [hmem]
  exact Memory.read_write_other _ v (notStored n hi)

/-- Settles O41: `exec_H` says what becomes of the halt flag, `exec_status_fault` of the status. -/
theorem onlyHltHalts : Obligations.OnlyHltHalts := by
  unfold Obligations.OnlyHltHalts
  intro i s t h
  refine ⟨fun hH => by simp [exec_H h, hH], fun hH => by simp [exec_H h, hH], fun hs => ?_⟩
  rcases exec_status_fault hs h with ⟨hstatus, -⟩ | ⟨hi, hstatus, -⟩
  · simp [hstatus]
  · simp [hstatus, hi]

/-! ### What a step does -/

section Step

variable {s t : State}

/-- A step answers the same state, takes a fault of the check or the fetch, or runs the instruction it has fetched from
the cell at a counter in range. -/
theorem step_cases (h : step s = .next t) :
    (¬ s.Active ∧ t = s) ∨
    (s.Active ∧ ∃ f, fetch s = .error f ∧ t = s.raise f) ∨
    (s.Active ∧ s.pcInRange ∧ ∃ v, fetch s = .ok v ∧ exec (decode v) s = .next t) := by
  unfold step at h
  rcases stepWith_cases Config.extOperands s with ⟨ha, hst⟩ | ⟨ha, f, hf, hst⟩ | ⟨ha, v, hf, hst⟩ <;> rw [hst] at h
  · cases h
    exact .inl ⟨by simp [State.Active, ← active_iff, ha], rfl⟩
  · cases h
    exact .inr (.inl ⟨(active_iff s).mp ha, f, hf, rfl⟩)
  · have hpc : s.pcInRange := by
      rcases fetch_cases s with ⟨-, hf'⟩ | ⟨-, -, -, hf'⟩ | ⟨h0, h1, -⟩
      · rw [hf] at hf'; cases hf'
      · rw [hf] at hf'; cases hf'
      · exact ⟨h0, h1⟩
    exact .inr (.inr ⟨(active_iff s).mp ha, hpc, v, hf, h⟩)

/-- A counter in range passes the check of R101. -/
theorem fetch_error_kind {f : FaultRecord} (hpc : s.pcInRange) (hf : fetch s = .error f) :
    f.kind ≠ .outOfRangeProgramCounter := by
  obtain ⟨h0, h1⟩ := hpc
  rcases fetch_cases s with ⟨hout, -⟩ | ⟨-, -, -, hf'⟩ | ⟨-, -, v, -, hf'⟩
  · omega
  · rw [hf] at hf'; cases hf'; simp
  · rw [hf] at hf'; cases hf'

theorem exec_answers_next (i : Instr) (s : State) : ∃ t, exec i s = .next t := by
  rw [exec_eq_cycle]
  unfold cycle
  split <;> exact ⟨_, rfl⟩

theorem step_answers_next (s : State) : ∃ t, step s = .next t := by
  unfold step
  rcases stepWith_cases Config.extOperands s with ⟨-, hst⟩ | ⟨-, f, -, hst⟩ | ⟨-, v, -, hst⟩ <;> rw [hst]
  · exact ⟨s, rfl⟩
  · exact ⟨_, rfl⟩
  · exact exec_answers_next _ s

theorem step_keeps_pcInRange (h : step s = .next t) (hpc : s.pcInRange) : t.pcInRange := by
  rcases step_cases h with ⟨-, rfl⟩ | ⟨-, f, -, rfl⟩ | ⟨-, -, v, -, hx⟩
  · exact hpc
  · exact hpc
  · exact exec_keeps_pcInRange hx hpc

theorem raise_coherent (f : FaultRecord) (hm : s.mem.wf) (hH : s.H = false) : (s.raise f).Coherent where
  memory := hm
  running h := by cases h
  halted h := by cases h
  faulted _ := ⟨hH, by simp⟩

theorem exec_keeps_coherent {i : Instr} (hs : s.Active) (hpc : s.pcInRange) (hc : s.Coherent)
    (h : exec i s = .next t) : t.Coherent := by
  obtain ⟨running, noHalt⟩ := hs
  have noFault : s.fault = none := (hc.running running).2
  have mem := exec_keeps_mem_wf h hc.memory
  have pc := exec_keeps_pcInRange h hpc
  have flag := exec_H h
  rcases exec_status_fault ⟨running, noHalt⟩ h with ⟨status, fault⟩ | ⟨hi, status, f, fault, -⟩
  · rw [noFault] at fault
    by_cases hi : i = .hlt
    · simp only [hi, if_true] at status flag
      exact ⟨mem, by simp [status], fun _ => ⟨flag, fault, pc⟩, by simp [status]⟩
    · simp only [hi, if_false, noHalt] at status flag
      exact ⟨mem, fun _ => ⟨flag, fault⟩, by simp [status], by simp [status]⟩
  · simp only [hi, if_false, noHalt] at flag
    exact ⟨mem, by simp [status], by simp [status], fun _ => ⟨flag, by simp [fault]⟩⟩

end Step

/-- Settles O30: a step without a cycle keeps the state, one that faults before Execute only raises, and an instruction
runs with the counter in range. -/
theorem stepKeepsCoherence : Obligations.StepKeepsCoherence := by
  unfold Obligations.StepKeepsCoherence
  intro s t hc h
  rcases step_cases h with ⟨-, rfl⟩ | ⟨⟨-, noHalt⟩, f, -, rfl⟩ | ⟨hs, hpc, v, -, hx⟩
  · exact hc
  · exact raise_coherent f hc.memory noHalt
  · exact exec_keeps_coherent hs hpc hc hx

/-- Settles O49: neither the check of a counter in range nor an Execute step raises that fault. -/
theorem stepKeepsCounterInRangeAndRaisesNoOutOfRange :
    Obligations.StepKeepsCounterInRangeAndRaisesNoOutOfRange := by
  unfold Obligations.StepKeepsCounterInRangeAndRaisesNoOutOfRange
  refine fun s t hpc noRecord h => ⟨step_keeps_pcInRange h hpc, fun x hx => ?_⟩
  rcases step_cases h with ⟨-, rfl⟩ | ⟨-, f, hf, rfl⟩ | ⟨hs, -, v, -, hi⟩
  · exact noRecord x hx
  · cases hx
    exact fetch_error_kind hpc hf rfl
  · rcases exec_status_fault hs hi with ⟨-, hfault⟩ | ⟨-, -, f, hfault, hkind⟩ <;> rw [hfault] at hx
    · exact noRecord x hx
    · cases hx
      exact hkind rfl

/-- Settles O32: the check and the fetch do not move the counter, and an instruction runs only with it in range. -/
theorem counterStaysInRange : Obligations.CounterStaysInRange := by
  unfold Obligations.CounterStaysInRange
  refine fun s t h => ⟨fun hs noFault => ?_, step_keeps_pcInRange h⟩
  rcases step_cases h with ⟨inactive, -⟩ | ⟨-, f, -, rfl⟩ | ⟨-, hpc, v, -, hx⟩
  · exact absurd hs inactive
  · exact absurd rfl noFault
  · exact exec_keeps_pcInRange hx hpc

/-! ### Runs -/

/-- Settles O6: no step of the run performs a cycle. -/
theorem stoppedCoreKeepsItsState : Obligations.StoppedCoreKeepsItsState := by
  unfold Obligations.StoppedCoreKeepsItsState
  intro k s stopped
  have hstep : step s = .next s := stepWith_inactive (by simp [State.active, stopped])
  induction k with
  | zero => rfl
  | succ k ih => rw [run_succ_of_next k hstep, ih]

theorem step_appends_out {s t : State} (h : step s = .next t) : ∃ emitted, t.out = s.out ++ emitted := by
  rcases step_cases h with ⟨-, rfl⟩ | ⟨-, f, -, rfl⟩ | ⟨-, -, v, -, hx⟩
  · exact ⟨[], (List.append_nil _).symm⟩
  · exact ⟨[], (List.append_nil _).symm⟩
  · exact exec_appends_out hx

/-- Settles O37: every step keeps that the output is the first state's with values appended. -/
theorem outputOnlyGrowsAlongRuns : Obligations.OutputOnlyGrowsAlongRuns := by
  unfold Obligations.OutputOnlyGrowsAlongRuns
  intro k s t h
  refine run_induction (p := fun u => ∃ emitted, u.out = s.out ++ emitted) ?_ step_answers_next k
    ⟨[], (List.append_nil _).symm⟩ h
  rintro u v ⟨before, hbefore⟩ hstep
  obtain ⟨now, hnow⟩ := step_appends_out hstep
  exact ⟨before ++ now, by rw [hnow, hbefore, List.append_assoc]⟩

/-- From a counter in range and without such a record, no run ends with an out-of-range record (R35 item 2). -/
theorem run_raises_no_outOfRange {k : Nat} {s t : State} (hpc : s.pcInRange) (noRecord : s.fault = none)
    (h : Sys2Proof.core.run k s = .next t) (x : Int) : t.fault ≠ some ⟨.outOfRangeProgramCounter, x⟩ :=
  (run_induction (p := fun u => u.pcInRange ∧ ∀ x, u.fault ≠ some ⟨.outOfRangeProgramCounter, x⟩)
    (fun u v hp hu => stepKeepsCounterInRangeAndRaisesNoOutOfRange u v hp.1 hp.2 hu)
    step_answers_next k ⟨hpc, by simp [noRecord]⟩ h).2 x

/-- A run whose counter is out of range when it begins ends with the first check (R101). -/
theorem run_of_pc_out_of_range {s : State} (k : Nat) (hs : s.Active) (hpc : ¬ s.pcInRange) :
    Sys2Proof.core.run (k + 1) s = .next (s.raise ⟨.outOfRangeProgramCounter, s.pc⟩) := by
  have check : fetch s = .error ⟨.outOfRangeProgramCounter, s.pc⟩ := by
    rcases fetch_cases s with ⟨-, hf⟩ | ⟨h0, h1, -⟩ | ⟨h0, h1, -⟩
    · exact hf
    · exact absurd ⟨h0, h1⟩ hpc
    · exact absurd ⟨h0, h1⟩ hpc
  have hstep : step s = .next (s.raise ⟨.outOfRangeProgramCounter, s.pc⟩) := by
    simp [step, stepWith, (active_iff s).mpr hs, check]
  rw [run_succ_of_next k hstep]
  exact stoppedCoreKeepsItsState k _ (by simp)

/-- Settles O33: with the start address in range no run raises that fault; otherwise the first check does and the run
stands still. -/
theorem outOfRangeFaultOnlyFromTheStartAddress : Obligations.OutOfRangeFaultOnlyFromTheStartAddress := by
  unfold Obligations.OutOfRangeFaultOnlyFromTheStartAddress
  intro s₀ t mem0 a x inputs k h hfault
  by_cases hpc : (s₀.start mem0 a inputs).pcInRange
  · exact absurd hfault (run_raises_no_outOfRange hpc rfl h x)
  · cases k with
    | zero => cases h; cases hfault
    | succ k =>
      rw [run_of_pc_out_of_range k ⟨rfl, rfl⟩ hpc] at h
      cases h
      cases hfault
      have ha : ¬ (0 ≤ a ∧ a ≤ 999) := hpc
      exact ⟨rfl, by omega, rfl⟩

/-! ### What B takes part in -/

/-- The state with `B` replaced. -/
def State.withB (s : State) (b : Value) : State := { s with B := b }

/-- An Execute step's ending with `B` replaced in the state it leaves. -/
def Effect.withB (b : Value) : Effect → Effect
  | .result r s => .result r (s.withB b)
  | .raised f s => .raised f (s.withB b)
  | .waits => .waits

theorem settleHalt_withB (s : State) (b : Value) : (s.withB b).settleHalt = s.settleHalt.withB b := by
  unfold State.settleHalt State.withB
  split <;> rfl

theorem withOperand_withB {n : Operand} {s : State} (g : Value → Value) (b : Value) :
    withOperand n (s.withB b) (fun m => flagged (g m) (s.withB b)) =
      (withOperand n s fun m => flagged (g m) s).withB b := by
  cases hm : s.mem.read n.val with
  | some m => rw [withOperand_mapped hm, withOperand_mapped (s := s.withB b) hm]; rfl
  | none => rw [withOperand_unmapped hm, withOperand_unmapped (s := s.withB b) hm]; rfl

/-- An Execute step other than those of MUL and DIV neither reads nor writes `B`. -/
theorem executeOf_withB {i : Instr} (hmul : i ≠ .mul) (hdiv : i ≠ .div) (w : Value) (s : State) (b : Value) :
    executeOf i w (s.withB b) = (executeOf i w s).withB b := by
  cases i with
  | mul => exact absurd rfl hmul
  | div => exact absurd rfl hdiv
  | add n => exact withOperand_withB _ b
  | sub n => exact withOperand_withB _ b
  | lda n => exact withOperand_withB _ b
  | brz n => cases hZ : s.Z <;> simp [executeOf, executeBrz, State.withB, Effect.withB, hZ]
  | brp n => cases hP : s.P <;> simp [executeOf, executeBrp, State.withB, Effect.withB, hP]
  | inp =>
    cases hinp : s.inp with
    | nil => simp [executeOf, executeInp, State.takeInput, State.withB, Effect.withB, hinp]
    | cons x rest =>
      simp only [executeOf, executeInp, State.takeInput, State.withB, hinp]
      split <;> rfl
  | hlt => rfl
  | trap n => rfl
  | sta n => rfl
  | useb => rfl
  | ext n => rfl
  | bra n => rfl
  | out => rfl
  | uio n => rfl

/-- Settles O47: without `U` neither the select step nor the write-back touches `B`, and Execute does so in MUL and DIV
alone. -/
theorem auxiliaryIsReadOnlyByMulAndDiv : Obligations.AuxiliaryIsReadOnlyByMulAndDiv := by
  unfold Obligations.AuxiliaryIsReadOnlyByMulAndDiv
  intro i s t b hU hmul hdiv h
  show exec i (s.withB b) = .next (t.withB b)
  rw [exec_eq_cycle] at h ⊢
  have body : executeOf i (s.withB b).advance.workingValue (s.withB b).advance =
      (executeOf i s.advance.workingValue s.advance).withB b := by
    have selected : (s.withB b).advance.workingValue = s.advance.workingValue := by simp [State.withB, hU]
    rw [selected]
    exact executeOf_withB hmul hdiv _ s.advance b
  rcases cycle_cases h with ⟨r, u, hb, rfl⟩ | ⟨f, u, hb, rfl⟩ | ⟨hb, rfl⟩ <;> rw [hb] at body
  · rw [cycle_of_result body, ← settleHalt_withB]
    simp [State.writeBack, State.withB, hU]
  · exact cycle_of_raised body
  · exact cycle_of_waits body

end Sys2Proof.Machine
end

section
/-! Memory and the channels (20_memory.md): cells above 99 (R54), mapped cells (R27), who uses the channels (R64, R65),
and a store that the next fetch reads (R62). -/

namespace Sys2Proof.Machine

/-! ### Cells above 99, and mapped cells -/

/-- A write maps its cell and unmaps none. -/
theorem Memory.write_keeps_mapped {m : Memory} {b : Nat} (a : Nat) (v : Value) (hb : m.read b ≠ none) :
    (m.write a v).read b ≠ none := by
  by_cases hba : b = a
  · simp [hba]
  · rwa [Memory.read_write_other m v hba]

/-- No operand names a cell above 99 (R54, R81). -/
theorem exec_keeps_upper_cells {i : Instr} {s t : State} (h : exec i s = .next t) {a : Nat} (ha : 100 ≤ a) :
    t.mem.read a = s.mem.read a :=
  onlyStoreChangesMemory i s t a h fun n _ => by unfold operandAddress; omega

theorem exec_keeps_mapped {i : Instr} {s t : State} (h : exec i s = .next t) {a : Nat} (ha : s.mem.read a ≠ none) :
    t.mem.read a ≠ none := by
  rcases exec_mem h with hmem | ⟨n, v, -, hmem⟩ <;> rw [hmem]
  · exact ha
  · exact Memory.write_keeps_mapped _ v ha

/-- Settles O35: only an instruction that was fetched changes memory, and it keeps both. -/
theorem stepKeepsUpperCellsAndMappedness : Obligations.StepKeepsUpperCellsAndMappedness := by
  unfold Obligations.StepKeepsUpperCellsAndMappedness
  intro s t a h
  rcases step_cases h with ⟨-, rfl⟩ | ⟨-, f, -, rfl⟩ | ⟨-, -, v, -, hx⟩
  · exact ⟨fun _ => rfl, id⟩
  · exact ⟨fun _ => rfl, id⟩
  · exact ⟨exec_keeps_upper_cells hx, exec_keeps_mapped hx⟩

/-! ### The channels -/

/-- Settles O36: each of the four ways a cycle ends says what became of both channels. -/
theorem channelsAreUsedOnlyByInpAndOut : Obligations.ChannelsAreUsedOnlyByInpAndOut := by
  unfold Obligations.ChannelsAreUsedOnlyByInpAndOut
  intro i s t h
  rcases exec_cases h with ⟨r, u, frame, rfl⟩ | ⟨hi, f, -, rfl⟩ | ⟨rfl, x, rest, hs, -, rfl⟩ | ⟨rfl, hs, rfl⟩
  · have out : i ≠ .out → u.out = s.out := fun hi => by simpa [hi] using frame.out
    rcases frame.inp with ⟨hi, inp⟩ | ⟨rfl, inp⟩
    · exact ⟨fun _ => by simpa using inp, by simpa using out, fun h => absurd h hi⟩
    · rw [State.advance_inp] at inp
      exact ⟨fun h => absurd rfl h, by simpa using out, fun _ => by simp [inp]⟩
  · exact ⟨fun _ => rfl, fun _ => rfl, fun h => absurd h hi⟩
  · exact ⟨fun h => absurd rfl h, fun _ => rfl, fun _ => by simp [hs]⟩
  · exact ⟨fun h => absurd rfl h, fun _ => rfl, fun _ => by simp [hs]⟩

/-! ### A store into the cell that is executed next -/

/-- An active core whose counter names a cell that holds `v` runs the instruction of `v` (R102 to R104). -/
theorem step_of_read {s : State} {v : Value} (hs : s.Active) (hpc : s.pcInRange)
    (hv : s.mem.read s.pc.toNat = some v) : step s = exec (decode v) s := by
  obtain ⟨h0, h1⟩ := hpc
  have fetched : fetch s = .ok v := by
    rcases fetch_cases s with ⟨hout, -⟩ | ⟨-, -, hnone, -⟩ | ⟨-, -, u, hu, hf⟩
    · omega
    · rw [hnone] at hv; cases hv
    · rw [hf, Option.some.inj (hu.symm.trans hv)]
  simp [step, stepWith, (active_iff s).mpr hs, fetched, decode]

/-- STA completes in every state, with the working value stored and the flags set from it (R140). -/
theorem exec_sta (n : Operand) (s : State) :
    exec (.sta n) s = .next (((s.advance.memWrite (operandAddress n) s.workingValue).setFlags
      s.workingValue).writeBack s.U false s.workingValue).settleHalt := rfl

/-- Settles O44: after the STA the core is active, and its counter names the cell just written. -/
theorem storeIsSeenByTheNextFetch : Obligations.StoreIsSeenByTheNextFetch := by
  unfold Obligations.StoreIsSeenByTheNextFetch
  intro s n ⟨running, noHalt⟩ hpc
  refine ⟨_, exec_sta n s, step_of_read ?_ ?_ ?_⟩
  · simp [State.Active, running, noHalt]
  · simp only [State.pcInRange, State.settleHalt_pc, State.writeBack_pc, State.setFlags_pc, State.memWrite_pc]
    exact advance_pc_range s
  · simp [hpc, operandAddress, State.workingValue]

/-! ### Memories that agree on the cells 0 to 99 -/

/-- The state with its memory replaced. -/
def State.withMem (s : State) (m : Memory) : State := { s with mem := m }

/-- An Execute step's ending with the memory replaced in the state it leaves. -/
def Effect.withMem (m : Memory) : Effect → Effect
  | .result r s => .result r (s.withMem m)
  | .raised f s => .raised f (s.withMem m)
  | .waits => .waits

/-- What becomes of memory when `i` executes with the working value `w`: the one write of a STA (R140). -/
def Memory.afterExecute (i : Instr) (w : Value) (m : Memory) : Memory :=
  match i with
  | .sta n => m.write (operandAddress n) w
  | _ => m

/-- Two memories that read alike at a cell still do after the same write. -/
theorem Memory.read_write_congr {m m' : Memory} {b : Nat} (a : Nat) (v : Value) (h : m'.read b = m.read b) :
    (m'.write a v).read b = (m.write a v).read b := by
  by_cases hba : b = a
  · simp [hba]
  · rw [Memory.read_write_other m' v hba, Memory.read_write_other m v hba, h]

theorem Memory.read_afterExecute_congr {m m' : Memory} {b : Nat} (i : Instr) (w : Value)
    (h : m'.read b = m.read b) : (m'.afterExecute i w).read b = (m.afterExecute i w).read b := by
  unfold Memory.afterExecute
  split
  · exact Memory.read_write_congr _ w h
  · exact h

theorem settleHalt_withMem (s : State) (m : Memory) : (s.withMem m).settleHalt = s.settleHalt.withMem m := by
  unfold State.settleHalt State.withMem
  split <;> rfl

theorem writeBack_withMem (s : State) (m : Memory) (sel isUseb : Bool) (r : Value) :
    (s.withMem m).writeBack sel isUseb r = (s.writeBack sel isUseb r).withMem m := by
  unfold State.writeBack State.withMem
  split <;> rfl

/-- An operand read sees the one cell its operand names. -/
theorem withOperand_withMem {n : Operand} {s : State} {m : Memory} (g : Value → Value)
    (h : m.read n.val = s.mem.read n.val) :
    withOperand n (s.withMem m) (fun v => flagged (g v) (s.withMem m)) =
      (withOperand n s fun v => flagged (g v) s).withMem m := by
  cases hn : s.mem.read n.val with
  | some v => rw [withOperand_mapped hn, withOperand_mapped (s := s.withMem m) (h.trans hn)]; rfl
  | none => rw [withOperand_unmapped hn, withOperand_unmapped (s := s.withMem m) (h.trans hn)]; rfl

/-- An Execute step reads of memory only cells that an operand can name, and writes it only as STA does. -/
theorem executeOf_withMem {s : State} {m : Memory} (h : ∀ a, a < 100 → m.read a = s.mem.read a) (i : Instr)
    (w : Value) : executeOf i w (s.withMem m) = (executeOf i w s).withMem (m.afterExecute i w) := by
  cases i with
  | add n => exact withOperand_withMem _ (h n.val n.isLt)
  | sub n => exact withOperand_withMem _ (h n.val n.isLt)
  | lda n => exact withOperand_withMem _ (h n.val n.isLt)
  | div =>
    simp only [executeOf, executeDiv]
    split <;> rfl
  | brz n => cases hZ : s.Z <;> simp [executeOf, executeBrz, State.withMem, Effect.withMem, Memory.afterExecute, hZ]
  | brp n => cases hP : s.P <;> simp [executeOf, executeBrp, State.withMem, Effect.withMem, Memory.afterExecute, hP]
  | inp =>
    cases hinp : s.inp with
    | nil => simp [executeOf, executeInp, State.takeInput, State.withMem, Effect.withMem, hinp]
    | cons x rest =>
      simp only [executeOf, executeInp, State.takeInput, State.withMem, hinp]
      split <;> rfl
  | hlt => rfl
  | trap n => rfl
  | sta n => rfl
  | useb => rfl
  | mul => rfl
  | ext n => rfl
  | bra n => rfl
  | out => rfl
  | uio n => rfl

/-- With a memory that agrees on 0 to 99, an instruction answers the same state but for the memory, on which it acts
alike. -/
theorem exec_withMem {i : Instr} {s t : State} {m : Memory} (agree : ∀ a, a < 100 → m.read a = s.mem.read a)
    (h : exec i s = .next t) :
    exec i (s.withMem m) = .next (t.withMem (m.afterExecute i s.workingValue)) := by
  rw [exec_eq_cycle] at h ⊢
  have body : executeOf i (s.withMem m).advance.workingValue (s.withMem m).advance =
      (executeOf i s.advance.workingValue s.advance).withMem (m.afterExecute i s.workingValue) :=
    executeOf_withMem (s := s.advance) agree i s.workingValue
  rcases cycle_cases h with ⟨r, u, hb, rfl⟩ | ⟨f, u, hb, rfl⟩ | ⟨hb, rfl⟩ <;> rw [hb] at body
  · rw [cycle_of_result body, writeBack_withMem, settleHalt_withMem]
    rfl
  · exact cycle_of_raised body
  · obtain ⟨rfl, -⟩ := executeOf_waits hb
    exact cycle_of_waits body

/-- The memory after an instruction: `exec_withMem` at the state's own memory. -/
theorem exec_mem_eq_afterExecute {i : Instr} {s t : State} (h : exec i s = .next t) :
    t.mem = s.mem.afterExecute i s.workingValue := by
  have own : exec i s = .next (t.withMem (s.mem.afterExecute i s.workingValue)) := exec_withMem (fun _ _ => rfl) h
  rw [h] at own
  exact congrArg State.mem (Host.Outcome.next.inj own)

/-- Settles O48: the replaced memory goes through the same write, which no cell above 99 sees. -/
theorem upperCellsAreOutOfReach : Obligations.UpperCellsAreOutOfReach := by
  unfold Obligations.UpperCellsAreOutOfReach
  intro i s t m agree h
  have replaced := exec_withMem agree h
  refine ⟨m.afterExecute i s.workingValue, replaced, fun a ha => ?_, fun a ha => exec_keeps_upper_cells replaced ha⟩
  rw [exec_mem_eq_afterExecute h]
  exact Memory.read_afterExecute_congr i _ (agree a ha)

end Sys2Proof.Machine
end

section
/-! Decoding and encoding are inverse to each other (30_encoding.md R81 to R86), for every choice of distinct class 4
operand numbers; and every instruction and step answers a next state. -/

namespace Sys2Proof.Laws

/-! ### The word of an instruction -/

@[simp] theorem wordOf_val (op : Fin 10) (n : Operand) : (wordOf op n).val = 100 * op.val + n.val := rfl

theorem encodeWith_eq_wordOf (c : ExtOperands) (i : Instr) : encodeWith c i = wordOf (classOf i) (operandIn c i) := by
  cases i <;> rfl

section SubDecoding

variable {c : ExtOperands} {n : Operand}

/-! ### Decoding, then encoding -/

theorem encodeWith_decodeTrapHalt : encodeWith c (decodeTrapHalt n) = wordOf 0 n := by
  unfold decodeTrapHalt
  split_ifs with halt
  · rw [halt]; rfl
  · rfl

theorem encodeWith_decodeExtended : encodeWith c (decodeExtended c n) = wordOf 4 n := by
  unfold decodeExtended
  split_ifs with useb mul div
  · rw [useb]; rfl
  · rw [mul]; rfl
  · rw [div]; rfl
  · rfl

theorem encodeWith_decodeIO : encodeWith c (decodeIO n) = wordOf 9 n := by
  unfold decodeIO
  split_ifs with inp out
  · rw [inp]; rfl
  · rw [out]; rfl
  · rfl

/-! An extension-point row is reached only when the operand selects no other row of its class (R83). -/

theorem decodeTrapHalt_wellFormed : (decodeTrapHalt n).wellFormed c = true := by
  unfold decodeTrapHalt
  split_ifs with halt
  · rfl
  · exact decide_eq_true halt

theorem decodeExtended_wellFormed : (decodeExtended c n).wellFormed c = true := by
  unfold decodeExtended
  split_ifs with useb mul div
  · rfl
  · rfl
  · rfl
  · exact decide_eq_true ⟨useb, mul, div⟩

theorem decodeIO_wellFormed : (decodeIO n).wellFormed c = true := by
  unfold decodeIO
  split_ifs with inp out
  · rfl
  · rfl
  · exact decide_eq_true ⟨inp, out⟩

end SubDecoding

/-! Every class is one row, or one of 0, 4 and 9 (the arms `h_1`, `h_5`, `h_10`), which the operand decodes further
(R82, R83). -/

theorem decodeWith_wellFormed (c : ExtOperands) (v : Value) : (decodeWith c v).wellFormed c = true := by
  unfold decodeWith
  split
  case h_1 => exact decodeTrapHalt_wellFormed
  case h_5 => exact decodeExtended_wellFormed
  case h_10 => exact decodeIO_wellFormed
  all_goals rfl

theorem encodeWith_decodeWith (c : ExtOperands) (v : Value) : encodeWith c (decodeWith c v) = v := by
  have fields : encodeWith c (decodeWith c v) = wordOf (opClass v) (operandOf v) := by
    unfold decodeWith
    split <;> rename_i op <;> rw [op]
    case h_1 => exact encodeWith_decodeTrapHalt
    case h_5 => exact encodeWith_decodeExtended
    case h_10 => exact encodeWith_decodeIO
    all_goals rfl
  rw [fields, wordOf_opClass_operandOf]

/-! ### Encoding, then decoding -/

/-- Distinctness is what lets MUL and DIV pass the tests for the operands before theirs; well-formedness does so for
TRAP, EXT and UIO. -/
theorem decodeWith_encodeWith {c : ExtOperands} (hc : c.distinct) {i : Instr} (hi : i.wellFormed c = true) :
    decodeWith c (encodeWith c i) = i := by
  obtain ⟨useb_mul, useb_div, mul_div⟩ := hc
  cases i with
  | trap n =>
    have hn : n ≠ 0 := of_decide_eq_true hi
    simp [decodeWith, encodeWith, decodeTrapHalt, hn]
  | mul => simp [decodeWith, encodeWith, decodeExtended, useb_mul.symm]
  | div => simp [decodeWith, encodeWith, decodeExtended, useb_div.symm, mul_div.symm]
  | ext n =>
    obtain ⟨not_useb, not_mul, not_div⟩ := of_decide_eq_true hi
    simp [decodeWith, encodeWith, decodeExtended, not_useb, not_mul, not_div]
  | uio n =>
    obtain ⟨not_inp, not_out⟩ := of_decide_eq_true hi
    simp [decodeWith, encodeWith, decodeIO, not_inp, not_out]
  | hlt => simp [decodeWith, encodeWith, decodeTrapHalt]
  | useb => simp [decodeWith, encodeWith, decodeExtended]
  | inp => simp [decodeWith, encodeWith, decodeIO]
  | out => simp [decodeWith, encodeWith, decodeIO]
  | _ n => simp [decodeWith, encodeWith]

/-- The class map (R82, R83, R85): the word an instruction is decoded from is the one of its class and operand. -/
theorem decodeWith_eq_iff {c : ExtOperands} (hc : c.distinct) (v : Value) (i : Instr) :
    decodeWith c v = i ↔ v.val = 100 * (classOf i).val + (operandIn c i).val ∧ i.wellFormed c = true := by
  rw [← wordOf_val, ← encodeWith_eq_wordOf, ← Fin.ext_iff]
  constructor
  · rintro rfl
    exact ⟨(encodeWith_decodeWith c v).symm, decodeWith_wellFormed c v⟩
  · rintro ⟨rfl, hi⟩
    exact decodeWith_encodeWith hc hi

/-- Settles O3: `decodeWith_encodeWith`. -/
theorem decodeEncodeRoundTrip : Obligations.DecodeEncodeRoundTrip := by
  unfold Obligations.DecodeEncodeRoundTrip
  exact fun _ _ hc hi => decodeWith_encodeWith hc hi

/-- Settles O4: neither half needs the class 4 operand numbers to be distinct. -/
theorem everyValueIsTheWordOfItsInstruction : Obligations.EveryValueIsTheWordOfItsInstruction := by
  unfold Obligations.EveryValueIsTheWordOfItsInstruction
  exact fun c v _ => ⟨decodeWith_wellFormed c v, encodeWith_decodeWith c v⟩

/-- Settles O2: each row is `decodeWith_eq_iff` at its instruction. -/
theorem classMapSelectsRows : Obligations.ClassMapSelectsRows := by
  unfold Obligations.ClassMapSelectsRows
  intro c v n hc
  simp [decodeWith_eq_iff hc, classOf, operandIn, Instr.wellFormed]

/-- Settles O1: seventeen closed evaluations of the decoder. -/
theorem tableWordsDecode : Obligations.TableWordsDecode := by
  unfold Obligations.TableWordsDecode
  decide

end Sys2Proof.Laws

namespace Sys2Proof.Machine

/-- Under any operand numbers a step keeps the state, takes a fault as a next state, or runs an instruction. -/
theorem stepWith_answers_next (c : ExtOperands) (s : State) : ∃ t, stepWith c s = .next t := by
  rcases stepWith_cases c s with ⟨-, hst⟩ | ⟨-, f, -, hst⟩ | ⟨-, v, -, hst⟩ <;> rw [hst]
  · exact ⟨s, rfl⟩
  · exact ⟨s.raise f, rfl⟩
  · exact exec_answers_next _ s

/-- Settles O29: a cycle's three endings are all next states. -/
theorem everyStepAnswersANextState : Obligations.EveryStepAnswersANextState := by
  unfold Obligations.EveryStepAnswersANextState
  exact ⟨exec_answers_next, stepWith_answers_next⟩

end Sys2Proof.Machine
end

section
/-! The cycle every instruction shares (40_cycle_engine.md): the counter check (R101), the fetch (R102), the write-back
(R108) and who writes the flags (R110, R111). -/

namespace Sys2Proof

/-- The instructions whose Execute step calls `SetFlags` when it gives a result (R111). -/
def Instr.setsFlags : Instr → Bool
  | .add _ | .sub _ | .mul | .div | .lda _ | .inp | .sta _ | .out => true
  | .hlt | .useb | .bra _ | .brz _ | .brp _ | .trap _ | .ext _ | .uio _ => false

end Sys2Proof

namespace Sys2Proof.Machine

/-! ### The flags -/

/-- Settles O26: both flags are comparisons of the value with 0 and with 500. -/
theorem setFlagsOutcomes : Obligations.SetFlagsOutcomes := by
  unfold Obligations.SetFlagsOutcomes
  intro s v
  refine ⟨rfl, ?_⟩
  simp only [State.setFlags_Z, State.setFlags_P, zeroFlag, positiveFlag, decide_eq_true_eq, decide_eq_false_iff_not]
  omega

/-- What the flags are after an Execute step that gives the result `r`. -/
theorem executeOf_flags {i : Instr} {w r : Value} {s t : State} (h : executeOf i w s = .result r t) :
    t.Z = (if i.setsFlags then zeroFlag r else s.Z) ∧ t.P = (if i.setsFlags then positiveFlag r else s.P) := by
  cases i with
  | add n => cases withOperand_result h; exact ⟨rfl, rfl⟩
  | sub n => cases withOperand_result h; exact ⟨rfl, rfl⟩
  | lda n => cases withOperand_result h; exact ⟨rfl, rfl⟩
  | div =>
    simp only [executeOf, executeDiv] at h
    split at h <;> cases h
    exact ⟨rfl, rfl⟩
  | inp =>
    simp only [executeOf, executeInp] at h
    split at h
    · cases h
    · split at h <;> cases h
      exact ⟨rfl, rfl⟩
  | brz n =>
    simp only [executeOf, executeBrz] at h
    split at h <;> cases h <;> exact ⟨rfl, rfl⟩
  | brp n =>
    simp only [executeOf, executeBrp] at h
    split at h <;> cases h <;> exact ⟨rfl, rfl⟩
  | sta n => cases h; exact ⟨rfl, rfl⟩
  | mul => cases h; exact ⟨rfl, rfl⟩
  | out => cases h; exact ⟨rfl, rfl⟩
  | hlt => cases h; exact ⟨rfl, rfl⟩
  | useb => cases h; exact ⟨rfl, rfl⟩
  | bra n => cases h; exact ⟨rfl, rfl⟩
  | trap n => cases h
  | ext n => cases h
  | uio n => cases h

/-- A `raise` in Execute leaves the flags alone. -/
theorem executeOf_raised_keeps_flags {i : Instr} {w : Value} {s t : State} {f : FaultRecord}
    (h : executeOf i w s = .raised f t) : t.Z = s.Z ∧ t.P = s.P := by
  rcases executeOf_raised h with ⟨-, rfl⟩ | ⟨-, x, rest, -, rfl, -⟩ <;> exact ⟨rfl, rfl⟩

/-! ### Write-back -/

/-- A cycle that completes in a running core ends Running or Halted. -/
theorem settleHalt_not_faulted {s : State} (running : s.status = .running) : s.settleHalt.status ≠ .faulted := by
  rw [State.settleHalt_status, running]
  split <;> decide

/-- Settles O39: Execute writes neither register, so only the write-back of a completed cycle does. -/
theorem oneRegisterIsWritten : Obligations.OneRegisterIsWritten := by
  unfold Obligations.OneRegisterIsWritten
  intro i s t h
  rcases exec_cases h with ⟨r, u, frame, rfl⟩ | ⟨-, f, -, rfl⟩ | ⟨-, x, rest, -, -, rfl⟩ | ⟨-, -, rfl⟩
  · refine ⟨fun toA => ?_, fun hU hi => by simp [frame.A, hU, hi]⟩
    rcases toA with hU | hi
    · simp [frame.B, hU]
    · simp [frame.B, hi]
  all_goals exact ⟨fun _ => rfl, fun _ _ => rfl⟩

/-- Settles O38: the flags are those Execute leaves, and the value it set them from is the one written back. -/
theorem flagsDescribeTheWorkingRegister : Obligations.FlagsDescribeTheWorkingRegister := by
  unfold Obligations.FlagsDescribeTheWorkingRegister
  intro i s t ⟨running, _⟩ h notWaiting
  rw [exec_eq_cycle] at h
  rcases cycle_cases h with ⟨r, u, hb, ht⟩ | ⟨f, u, hb, rfl⟩ | ⟨hb, -⟩
  · have completed : t.status ≠ .faulted := by
      rw [ht]
      exact settleHalt_not_faulted (by simp [(executeOf_frame hb).status, running])
    have flags : t.Z = (if i.setsFlags then zeroFlag r else s.Z) ∧
        t.P = (if i.setsFlags then positiveFlag r else s.P) := by
      simpa [ht] using executeOf_flags hb
    refine ⟨fun keeps => ?_, fun _ sets => ?_⟩
    · have hi : i.setsFlags = false := by
        rcases keeps with faulted | rfl | rfl | ⟨n, rfl | rfl | rfl⟩
        · exact absurd faulted completed
        all_goals rfl
      simpa [hi] using flags
    · obtain ⟨hi, notUseb⟩ : i.setsFlags = true ∧ i ≠ .useb := by
        rcases sets with rfl | rfl | rfl | rfl | ⟨n, rfl | rfl | rfl | rfl⟩ <;> exact ⟨rfl, by simp⟩
      have selected : (if s.U then t.B else t.A) = r := by
        cases hU : s.U <;> simp [ht, hU, notUseb]
      simpa [hi, selected, zeroFlag, positiveFlag] using flags
  · have kept : u.Z = s.Z ∧ u.P = s.P := executeOf_raised_keeps_flags (s := s.advance) hb
    exact ⟨fun _ => kept, fun completed => absurd rfl completed⟩
  · exact absurd (executeOf_waits hb) notWaiting

/-! ### The check and the fetch -/

section Fetch

variable {s : State}

theorem fetch_of_not_pcInRange (hpc : ¬ s.pcInRange) : fetch s = .error ⟨.outOfRangeProgramCounter, s.pc⟩ := by
  rcases fetch_cases s with ⟨-, hf⟩ | ⟨h0, h1, -⟩ | ⟨h0, h1, -⟩
  · exact hf
  · exact absurd ⟨h0, h1⟩ hpc
  · exact absurd ⟨h0, h1⟩ hpc

theorem fetch_of_unmapped (hpc : s.pcInRange) (unmapped : s.mem.read s.pc.toNat = none) :
    fetch s = .error ⟨.unmappedMemory, s.pc⟩ := by
  obtain ⟨h0, h1⟩ := hpc
  simp [fetch, unmapped, not_lt.mpr h0, not_lt.mpr h1]

theorem fetch_of_mapped {v : Value} (hpc : s.pcInRange) (mapped : s.mem.read s.pc.toNat = some v) :
    fetch s = .ok v := by
  obtain ⟨h0, h1⟩ := hpc
  simp [fetch, mapped, not_lt.mpr h0, not_lt.mpr h1]

theorem stepWith_of_fetch_error {f : FaultRecord} (c : ExtOperands) (hs : s.Active) (hf : fetch s = .error f) :
    stepWith c s = .next (s.raise f) := by
  simp [stepWith, (active_iff s).mpr hs, hf]

theorem stepWith_of_fetch_ok {v : Value} (c : ExtOperands) (hs : s.Active) (hf : fetch s = .ok v) :
    stepWith c s = exec (decodeWith c v) s := by
  simp [stepWith, (active_iff s).mpr hs, hf]

end Fetch

/-- Settles O7: the check raises, so nothing is fetched. -/
theorem outOfRangeCounterFaults : Obligations.OutOfRangeCounterFaults := by
  unfold Obligations.OutOfRangeCounterFaults
  exact fun s hs hpc => stepWith_of_fetch_error _ hs (fetch_of_not_pcInRange hpc)

/-- Settles O8: the fetch read raises before the counter is advanced. -/
theorem unmappedFetchFaults : Obligations.UnmappedFetchFaults := by
  unfold Obligations.UnmappedFetchFaults
  exact fun s hs hpc unmapped => stepWith_of_fetch_error _ hs (fetch_of_unmapped hpc unmapped)

/-- Settles O5: `step` is `stepWith` at the default operand numbers. -/
theorem stepRunsDecodedInstruction : Obligations.StepRunsDecodedInstruction := by
  unfold Obligations.StepRunsDecodedInstruction
  intro c s v hs hpc mapped
  have fetched : fetch s = .ok v := fetch_of_mapped hpc mapped
  exact ⟨stepWith_of_fetch_ok c hs fetched, stepWith_of_fetch_ok Config.extOperands hs fetched⟩

end Sys2Proof.Machine
end

section
/-! Traps and halts (41_trap_halt.md): HLT and the core it stops (R120), and the extension points, which have no handler
(R121, R153, R172). -/

open Sys2Proof.Claims

namespace Sys2Proof.Machine

/-! ### Halt -/

/-- Writing back the working value changes no register and only consumes `U` (D25, log 12). -/
theorem writeBack_workingValue (s : State) : s.writeBack s.U false s.workingValue = { s with U := false } := by
  obtain ⟨A, B, pc, Z, P, U, H, mem, status, fault, out, inp⟩ := s
  cases U with
  | false => rfl
  | true => rfl

theorem settleHalt_of_H {s : State} (hH : s.H = true) : s.settleHalt = { s with status := .halted } := if_pos hH

/-- HLT completes in every state, active or not. -/
theorem exec_hlt (s : State) :
    exec .hlt s = .next { s with pc := nextPc s, U := false, H := true, status := .halted } := by
  have consumed : ({ s.advance with H := true } : State).writeBack s.U false s.advance.workingValue =
      { s.advance with H := true, U := false } := writeBack_workingValue { s.advance with H := true }
  have settled : ({ s.advance with H := true, U := false } : State).settleHalt =
      { s with pc := nextPc s, U := false, H := true, status := .halted } := settleHalt_of_H rfl
  calc exec .hlt s
    _ = .next (({ s.advance with H := true } : State).writeBack s.U false s.advance.workingValue).settleHalt := rfl
    _ = .next { s with pc := nextPc s, U := false, H := true, status := .halted } := by rw [consumed, settled]

/-- Settles O10: HLT writes back the working value, and a core with the halt flag set performs no cycle. -/
theorem hltHalts : Obligations.HltHalts := by
  unfold Obligations.HltHalts
  exact fun s _ => ⟨exec_hlt s, stepWith_inactive rfl⟩

/-! ### Extension points -/

/-- An Execute step that raises in the advanced state makes the whole instruction the fault of R183 and R184. -/
theorem exec_of_raised {i : Instr} {s : State} {k : FaultKind} {info : Int}
    (h : executeOf i s.advance.workingValue s.advance = .raised ⟨k, info⟩ s.advance) :
    exec i s = .next (faultedAt s k info) := by
  rw [exec_eq_cycle, cycle_of_raised h]
  rfl

/-- Settles O11: each of the three Execute steps is a `raise` of its own kind with the operand, well-formed or not. -/
theorem extensionPointsFault : Obligations.ExtensionPointsFault := by
  unfold Obligations.ExtensionPointsFault
  intro c s n _
  exact ⟨fun _ => exec_of_raised rfl, fun _ => exec_of_raised rfl, fun _ => exec_of_raised rfl⟩

end Sys2Proof.Machine
end

section
/-! ADD and SUB (42_arithmetic.md R130, R131): the whole next state, and what the results mean in the
signed reading (R9). -/

open Sys2Proof.Claims

namespace Sys2Proof.Machine

/-! ### Instructions that write back a flagged result -/

theorem settleHalt_of_not_H {s : State} (hH : s.H = false) : s.settleHalt = s := if_neg (by simp [hH])

/-- Setting the flags of `r` and then writing `r` back is the one update of R108 and R110. -/
theorem writeBack_setFlags_advance (s : State) (r : Value) :
    (s.advance.setFlags r).writeBack s.U false r = wroteFlagged s r := by
  obtain ⟨A, B, pc, Z, P, U, H, mem, status, fault, out, inp⟩ := s
  cases U with
  | false => rfl
  | true => rfl

/-- An Execute step that ends `flagged` in the advanced state makes the instruction the update of R108 and R110. -/
theorem exec_of_flagged {i : Instr} {s : State} {r : Value} (hs : s.Active) (hi : i ≠ .useb)
    (h : executeOf i s.advance.workingValue s.advance = flagged r s.advance) :
    exec i s = .next (wroteFlagged s r) := by
  obtain ⟨-, noHalt⟩ := hs
  have settled : ((s.advance.setFlags r).writeBack s.U false r).settleHalt =
      (s.advance.setFlags r).writeBack s.U false r := settleHalt_of_not_H (by simp [noHalt])
  rw [exec_eq_cycle, cycle_of_result h, decide_eq_false hi, settled, writeBack_setFlags_advance]

theorem wroteFlagged_P (s : State) (r : Value) : (wroteFlagged s r).P = positiveFlag r := rfl

/-- The register that the instruction wrote, named by `U` as it was before. -/
theorem wroteFlagged_selected (s : State) (r : Value) :
    (if s.U then (wroteFlagged s r).B else (wroteFlagged s r).A) = r := by
  cases hU : s.U <;> simp [wroteBack, hU]

/-! ### ADD and SUB -/

section Operand

variable {s : State} {n : Operand}

theorem exec_add_mapped {m : Value} (hs : s.Active) (mapped : s.mem.read n.val = some m) :
    exec (.add n) s = .next (wroteFlagged s (trunc ((w s).val + m.val))) :=
  exec_of_flagged hs nofun (withOperand_mapped mapped)

theorem exec_sub_mapped {m : Value} (hs : s.Active) (mapped : s.mem.read n.val = some m) :
    exec (.sub n) s = .next (wroteFlagged s (trunc ((w s).val - m.val))) :=
  exec_of_flagged hs nofun (withOperand_mapped mapped)

theorem exec_add_unmapped (unmapped : s.mem.read n.val = none) :
    exec (.add n) s = .next (faultedAt s .unmappedMemory n.val) :=
  exec_of_raised (withOperand_unmapped unmapped)

theorem exec_sub_unmapped (unmapped : s.mem.read n.val = none) :
    exec (.sub n) s = .next (faultedAt s .unmappedMemory n.val) :=
  exec_of_raised (withOperand_unmapped unmapped)

end Operand

/-- A value that is the remainder of `x` modulo 1000 is the truncation of `x`. -/
theorem trunc_eq_of_val_eq_emod {x : Int} {r : Value} (hr : (r.val : Int) = x % 1000) : trunc x = r :=
  Fin.ext (Int.natCast_inj.mp ((trunc_val x).trans hr.symm))

/-- Settles O12: the result `r` is the truncation that ADD computes; an unmapped operand raises before any write. -/
theorem addResult : Obligations.AddResult := by
  unfold Obligations.AddResult
  intro s n hs
  refine ⟨fun m r mapped hr => ?_, exec_add_unmapped⟩
  have sum : trunc ((w s).val + m.val) = r := trunc_eq_of_val_eq_emod (by exact_mod_cast hr)
  rw [exec_add_mapped hs mapped, sum]

/-- Settles O13: the result `r` is the truncation that SUB computes; an unmapped operand raises before any write. -/
theorem subResult : Obligations.SubResult := by
  unfold Obligations.SubResult
  intro s n hs
  refine ⟨fun m r mapped hr => ?_, exec_sub_unmapped⟩
  have difference : trunc ((w s).val - m.val) = r := trunc_eq_of_val_eq_emod hr
  rw [exec_sub_mapped hs mapped, difference]

/-! ### The signed reading -/

/-- The signed reading of a value is congruent to it modulo 1000. -/
theorem dvd_sub_signed (v : Value) : (1000 : Int) ∣ v.val - signed v := by
  unfold signed
  split <;> omega

/-- Every integer in [-500, 499] is the signed reading of its truncation (R9). -/
theorem signed_trunc {x : Int} (lower : -500 ≤ x) (upper : x ≤ 499) : signed (trunc x) = x := by
  have remainder := trunc_val x
  unfold signed
  split <;> omega

/-- The positive flag is the sign of the signed reading, with zero positive (R24). -/
theorem positiveFlag_iff_signed_nonneg (v : Value) : positiveFlag v = true ↔ 0 ≤ signed v := by
  have below := v.isLt
  unfold positiveFlag signed
  rw [decide_eq_true_eq]
  split <;> omega

/-- Adding raw values and adding signed readings truncate to the same value. -/
theorem trunc_add_eq_trunc_signed_add (u v : Value) :
    trunc (u.val + v.val) = trunc (signed u + signed v) := by
  rw [trunc_eq_trunc_iff, add_sub_add_comm]
  exact dvd_add (dvd_sub_signed u) (dvd_sub_signed v)

/-- Settles O45: in that range `P` is the sign of the true difference. -/
theorem subComparesWithinHalfTheRange : Obligations.SubComparesWithinHalfTheRange := by
  unfold Obligations.SubComparesWithinHalfTheRange
  intro s n m hs mapped lower upper
  refine ⟨_, exec_sub_mapped hs mapped, ?_⟩
  rw [wroteFlagged_P, positiveFlag_iff_signed_nonneg, signed_trunc lower upper, sub_nonneg, Nat.cast_le]

/-- Settles O46: ADD truncates the signed sum too, and that sum is in the range of the signed reading. -/
theorem addIsSignedWithinHalfTheRange : Obligations.AddIsSignedWithinHalfTheRange := by
  unfold Obligations.AddIsSignedWithinHalfTheRange
  intro s n m hs mapped lower upper
  refine ⟨_, exec_add_mapped hs mapped, ?_⟩
  rw [wroteFlagged_selected, trunc_add_eq_trunc_signed_add, signed_trunc lower upper]

end Sys2Proof.Machine
end

section
/-! STA and LDA (43_store_load.md R140, R141): the whole next state. -/

open Sys2Proof.Claims

namespace Sys2Proof.Machine

/-! ### Store -/

/-- `exec_of_flagged` for an Execute step that has also moved the rest of the state, from `s` to `u`. -/
theorem exec_of_flagged_in {i : Instr} {s u : State} {r : Value} (noHalt : u.H = false) (sameU : u.U = s.U)
    (hi : i ≠ .useb) (h : executeOf i s.advance.workingValue s.advance = flagged r u.advance) :
    exec i s = .next (wroteFlagged u r) := by
  have settled : ((u.advance.setFlags r).writeBack u.U false r).settleHalt =
      (u.advance.setFlags r).writeBack u.U false r := settleHalt_of_not_H (by simp [noHalt])
  rw [exec_eq_cycle, cycle_of_result h, decide_eq_false hi, ← sameU, settled, writeBack_setFlags_advance]

/-- A write-back neither reads nor writes memory. -/
theorem wroteFlagged_withMem (s : State) (m : Memory) (r : Value) :
    wroteFlagged (s.withMem m) r = (wroteFlagged s r).withMem m := by
  obtain ⟨A, B, pc, Z, P, U, H, mem, status, fault, out, inp⟩ := s
  cases U with
  | false => rfl
  | true => rfl

/-- STA is the write of the working value and the write-back of it. -/
theorem exec_sta_active {s : State} (n : Operand) (hs : s.Active) :
    exec (.sta n) s = .next ((wroteFlagged s (w s)).withMem (s.mem.write (operandAddress n) (w s))) := by
  obtain ⟨-, noHalt⟩ := hs
  have stored : executeOf (.sta n) s.advance.workingValue s.advance =
      flagged (w s) (s.withMem (s.mem.write (operandAddress n) (w s))).advance := rfl
  rw [← wroteFlagged_withMem]
  exact exec_of_flagged_in noHalt rfl nofun stored

/-- Settles O14: the read-after-write laws of memory at the cell that the operand names and at the others. -/
theorem staStores : Obligations.StaStores := by
  unfold Obligations.StaStores
  intro s n hs
  exact ⟨_, exec_sta_active n hs, Memory.read_write_same _ _ _, fun _ ha => Memory.read_write_other _ _ ha, rfl⟩

/-! ### Load -/

section Operand

variable {s : State} {n : Operand}

theorem exec_lda_mapped {m : Value} (hs : s.Active) (mapped : s.mem.read n.val = some m) :
    exec (.lda n) s = .next (wroteFlagged s m) :=
  exec_of_flagged hs nofun (withOperand_mapped mapped)

theorem exec_lda_unmapped (unmapped : s.mem.read n.val = none) :
    exec (.lda n) s = .next (faultedAt s .unmappedMemory n.val) :=
  exec_of_raised (withOperand_unmapped unmapped)

end Operand

/-- Settles O15: the operand read goes on with the cell's value, or raises before any write. -/
theorem ldaLoads : Obligations.LdaLoads := by
  unfold Obligations.LdaLoads
  exact fun s n hs => ⟨fun m mapped => exec_lda_mapped hs mapped, exec_lda_unmapped⟩

end Sys2Proof.Machine
end

section
/-! USEB, MUL and DIV (44_extended.md R150, R151, R152): the whole next state. -/

open Sys2Proof.Claims

namespace Sys2Proof.Machine

/-! ### Use B -/

/-- The write-back of USEB goes to `A` whatever `U` selected, and leaves `U` set (R108, D20). -/
theorem writeBack_useb (s : State) (sel : Bool) (r : Value) : s.writeBack sel true r = { s with A := r } :=
  if_neg (by simp)

/-- Settles O16: the write-back to `A` is of the value that `U` selected before the cycle. -/
theorem usebSelectsAuxiliary : Obligations.UsebSelectsAuxiliary := by
  unfold Obligations.UsebSelectsAuxiliary
  intro s ⟨_, noHalt⟩
  have result : executeOf .useb s.advance.workingValue s.advance = .result (w s) { s.advance with U := true } := rfl
  have settled : ({ s.advance with U := true, A := w s } : State).settleHalt =
      { s.advance with U := true, A := w s } := settleHalt_of_not_H noHalt
  calc exec .useb s
    _ = cycle true (executeOf .useb) s := exec_eq_cycle .useb s
    _ = .next (({ s.advance with U := true } : State).writeBack s.U true (w s)).settleHalt := cycle_of_result result
    _ = .next { s with pc := nextPc s, U := true, A := w s } := by rw [writeBack_useb, settled]; rfl

/-! ### Multiply -/

theorem exec_mul_active {s : State} (hs : s.Active) :
    exec .mul s = .next (wroteFlagged s (trunc ((s.B.val : Int) * (w s).val))) :=
  exec_of_flagged hs nofun rfl

/-- Settles O17: the result `r` is the truncation of the exact product. -/
theorem mulResult : Obligations.MulResult := by
  unfold Obligations.MulResult
  intro s r hs hr
  have product : trunc ((s.B.val : Int) * (w s).val) = r := trunc_eq_of_val_eq_emod (by exact_mod_cast hr)
  rw [exec_mul_active hs, product]

/-! ### Divide -/

section Divisor

variable {s : State}

theorem exec_div_of_ne_zero (hs : s.Active) (nonzero : (w s).val ≠ 0) :
    exec .div s = .next (wroteFlagged s (trunc ((s.B.val : Int) / (w s).val))) :=
  exec_of_flagged hs nofun (if_neg nonzero)

theorem exec_div_of_eq_zero (zero : (w s).val = 0) : exec .div s = .next (faultedAt s .divisionByZero 0) :=
  exec_of_raised (if_pos zero)

end Divisor

/-- Settles O18: the floor quotient is a value, so truncation keeps it; a zero divisor raises before any write. -/
theorem divResult : Obligations.DivResult := by
  unfold Obligations.DivResult
  intro s hs
  refine ⟨fun r nonzero hr => ?_, exec_div_of_eq_zero⟩
  have quotient : (s.B.val : Int) / (w s).val = r.val := by exact_mod_cast hr.symm
  rw [exec_div_of_ne_zero hs nonzero, quotient, trunc_of_value]

end Sys2Proof.Machine
end

section
/-! BRA, BRZ and BRP (45_branch.md R160, R161, R162): the whole next state. -/

open Sys2Proof.Claims

namespace Sys2Proof.Machine

/-- An Execute step that only moves the counter, to `p`, writes back the working value and so consumes `U`
(D25, log 12). -/
theorem exec_of_moved_pc {i : Instr} {s : State} {p : Int} (hs : s.Active) (hi : i ≠ .useb)
    (h : executeOf i s.advance.workingValue s.advance = .result (w s) { s.advance with pc := p }) :
    exec i s = .next { s with pc := p, U := false } := by
  obtain ⟨-, noHalt⟩ := hs
  have consumed : ({ s.advance with pc := p } : State).writeBack s.U false (w s) =
      { s with pc := p, U := false } := writeBack_workingValue { s with pc := p }
  have settled : ({ s with pc := p, U := false } : State).settleHalt = { s with pc := p, U := false } :=
    settleHalt_of_not_H noHalt
  rw [exec_eq_cycle, cycle_of_result h, decide_eq_false hi, consumed, settled]

/-- Settles O19: BRA moves the counter to its operand. -/
theorem braJumps : Obligations.BraJumps := by
  unfold Obligations.BraJumps
  exact fun s n hs => exec_of_moved_pc hs nofun rfl

/-- The two ends of a conditional branch (R161, R162): the counter at the target, or where the advance left it. -/
theorem exec_of_conditional {i : Instr} {s : State} {n : Operand} {flag : Bool} (hs : s.Active) (hi : i ≠ .useb)
    (h : executeOf i s.advance.workingValue s.advance =
      .result (w s) (if flag then { s.advance with pc := branchTarget n } else s.advance)) :
    (flag = true → exec i s = .next { s with pc := n.val, U := false }) ∧
    (flag = false → exec i s = .next { s with pc := nextPc s, U := false }) := by
  constructor
  · rintro rfl
    exact exec_of_moved_pc hs hi h
  · rintro rfl
    exact exec_of_moved_pc hs hi h

/-- Settles O20: BRZ is conditional on `Z`, which the advance keeps. -/
theorem brzJumpsOnZeroFlag : Obligations.BrzJumpsOnZeroFlag := by
  unfold Obligations.BrzJumpsOnZeroFlag
  exact fun s n hs => exec_of_conditional hs nofun rfl

/-- Settles O21: BRP is conditional on `P`, which the advance keeps. -/
theorem brpJumpsOnPositiveFlag : Obligations.BrpJumpsOnPositiveFlag := by
  unfold Obligations.BrpJumpsOnPositiveFlag
  exact fun s n hs => exec_of_conditional hs nofun rfl

end Sys2Proof.Machine
end

section
/-! INP and OUT (46_io.md R170, R171): the whole next state. -/

open Sys2Proof.Claims

namespace Sys2Proof.Machine

/-- The update of R108 and R110 field by field: `U` selects the register and is false afterwards either way. -/
theorem wroteFlagged_eq (s : State) (r : Value) :
    wroteFlagged s r =
      { s with
        A := if s.U then s.A else r
        B := if s.U then r else s.B
        pc := nextPc s
        U := false
        Z := zeroFlag r
        P := positiveFlag r } := by
  obtain ⟨A, B, pc, Z, P, U, H, mem, status, fault, out, inp⟩ := s
  cases U with
  | false => rfl
  | true => rfl

/-! ### Input -/

/-- A write-back neither reads nor writes the input channel. -/
theorem wroteFlagged_withInp (s : State) (r : Value) (rest : List Int) :
    wroteFlagged { s with inp := rest } r = { wroteFlagged s r with inp := rest } := by
  rw [wroteFlagged_eq, wroteFlagged_eq]

section Channel

variable {s : State} {rest : List Int}

theorem executeInp_of_value {r : Value} (v : Value) (offered : s.inp = (r.val : Int) :: rest) :
    executeInp v s = flagged r { s with inp := rest } := by
  have inRange : ¬ ((r.val : Int) < 0 ∨ (r.val : Int) > 999) := by omega
  simp only [executeInp, State.takeInput, offered, if_neg inRange, trunc_of_value]

theorem executeInp_of_outOfRange {x : Int} (v : Value) (offered : s.inp = x :: rest) (outOfRange : x < 0 ∨ 999 < x) :
    executeInp v s = .raised ⟨.ioValueRange, x⟩ { s with inp := rest } := by
  simp only [executeInp, State.takeInput, offered, gt_iff_lt, if_pos outOfRange]

theorem executeInp_of_empty (v : Value) (empty : s.inp = []) : executeInp v s = .waits := by
  simp only [executeInp, State.takeInput, empty]

theorem exec_inp_of_value {r : Value} (hs : s.Active) (offered : s.inp = (r.val : Int) :: rest) :
    exec .inp s = .next { wroteFlagged s r with inp := rest } := by
  obtain ⟨-, noHalt⟩ := hs
  rw [← wroteFlagged_withInp]
  exact exec_of_flagged_in noHalt rfl nofun (executeInp_of_value s.advance.workingValue offered)

theorem exec_inp_of_outOfRange {x : Int} (offered : s.inp = x :: rest) (outOfRange : x < 0 ∨ 999 < x) :
    exec .inp s = .next { faultedAt s .ioValueRange x with inp := rest } :=
  cycle_of_raised (executeInp_of_outOfRange _ offered outOfRange)

theorem exec_inp_of_empty (empty : s.inp = []) : exec .inp s = .next s :=
  cycle_of_waits (executeInp_of_empty _ empty)

end Channel

/-- Settles O22: one clause for each end of INP's Execute step; a range fault leaves the channel without the integer
that raised it (D24). -/
theorem inpReadsTheNextInteger : Obligations.InpReadsTheNextInteger := by
  unfold Obligations.InpReadsTheNextInteger
  exact fun s hs =>
    ⟨fun r rest offered => exec_inp_of_value hs offered,
      fun x rest offered outOfRange => exec_inp_of_outOfRange offered outOfRange,
      exec_inp_of_empty⟩

/-! ### Output -/

/-- A write-back neither reads nor writes the output sequence. -/
theorem wroteFlagged_withOut (s : State) (r : Value) (emitted : List Value) :
    wroteFlagged { s with out := emitted } r = { wroteFlagged s r with out := emitted } := by
  rw [wroteFlagged_eq, wroteFlagged_eq]

/-- Settles O24: OUT is the emission of the working value and the write-back of it. -/
theorem outEmitsTheWorkingValue : Obligations.OutEmitsTheWorkingValue := by
  unfold Obligations.OutEmitsTheWorkingValue
  intro s ⟨_, noHalt⟩
  have emitted : executeOf .out s.advance.workingValue s.advance =
      flagged (w s) ({ s with out := s.out ++ [w s] } : State).advance := rfl
  rw [← wroteFlagged_withOut]
  exact exec_of_flagged_in noHalt rfl nofun emitted

end Sys2Proof.Machine
end

section
/-! Faults (60_exceptions.md): which instruction raises which one (R182), what a faulting step leaves as it was (R184,
R185), and the wait for input (R195). -/

open Sys2Proof.Claims

namespace Sys2Proof.Machine

/-! ### Which instruction raises which fault -/

/-- An instruction faults by a `raise` of its Execute step, in the advanced state or, for INP, with the integer
consumed that it records. -/
theorem exec_faulted_cases {i : Instr} {s t : State} (hs : s.Active) (h : exec i s = .next t)
    (faulted : t.status = .faulted) :
    (i ≠ .inp ∧ ∃ f, executeOf i (w s) s.advance = .raised f s.advance ∧ t = s.advance.raise f) ∨
    (i = .inp ∧ ∃ x rest, s.inp = x :: rest ∧ (x < 0 ∨ 999 < x) ∧
      t = ({ s.advance with inp := rest } : State).raise ⟨.ioValueRange, x⟩) := by
  obtain ⟨running, -⟩ := hs
  rcases exec_cases h with ⟨r, u, frame, rfl⟩ | raised | raised | ⟨-, -, rfl⟩
  · exact absurd faulted (settleHalt_not_faulted (by simp [frame.status, running]))
  · exact .inl raised
  · exact .inr raised
  · rw [running] at faulted; cases faulted

/-- An operand read raises only for an unmapped cell, whose address it records (R55). -/
theorem withOperand_raised {n : Operand} {s t : State} {g : Value → Value} {f : FaultRecord}
    (h : withOperand n s (fun m => flagged (g m) s) = .raised f t) :
    s.mem.read n.val = none ∧ f = ⟨.unmappedMemory, n.val⟩ := by
  cases hm : s.mem.read n.val with
  | some m => rw [withOperand_mapped hm] at h; cases h
  | none => rw [withOperand_unmapped hm] at h; cases h; exact ⟨rfl, rfl⟩

/-- DIV raises only for a zero divisor (R152). -/
theorem executeDiv_raised {v : Value} {s t : State} {f : FaultRecord} (h : executeDiv v s = .raised f t) :
    v.val = 0 ∧ f = ⟨.divisionByZero, 0⟩ := by
  unfold executeDiv at h
  split at h
  · next zero => cases h; exact ⟨zero, rfl⟩
  · cases h

/-- Settles O42: INP's fault is the one that consumes an integer; every other comes from the instruction's own `raise`,
and nine instructions have none. -/
theorem whichInstructionRaisesWhichFault : Obligations.WhichInstructionRaisesWhichFault := by
  unfold Obligations.WhichInstructionRaisesWhichFault
  intro i s t hs h faulted
  rcases exec_faulted_cases hs h faulted with ⟨notInp, f, raised, rfl⟩ | ⟨hi, x, rest, offered, outOfRange, rfl⟩
  · rw [State.raise_fault]
    cases i with
    | add n =>
      obtain ⟨unmapped, rfl⟩ := withOperand_raised raised
      exact .inl ⟨n, .inl rfl, unmapped, rfl⟩
    | sub n =>
      obtain ⟨unmapped, rfl⟩ := withOperand_raised raised
      exact .inl ⟨n, .inr (.inl rfl), unmapped, rfl⟩
    | lda n =>
      obtain ⟨unmapped, rfl⟩ := withOperand_raised raised
      exact .inl ⟨n, .inr (.inr rfl), unmapped, rfl⟩
    | trap n => cases raised; exact .inr (.inl ⟨n, rfl, rfl⟩)
    | ext n => cases raised; exact .inr (.inr (.inl ⟨n, rfl, rfl⟩))
    | uio n => cases raised; exact .inr (.inr (.inr (.inl ⟨n, rfl, rfl⟩)))
    | div =>
      obtain ⟨zero, rfl⟩ := executeDiv_raised raised
      exact .inr (.inr (.inr (.inr (.inr ⟨rfl, zero, rfl⟩))))
    | inp => exact absurd rfl notInp
    | hlt => cases raised
    | sta n => cases raised
    | useb => cases raised
    | mul => cases raised
    | bra n => cases raised
    | brz n => cases raised
    | brp n => cases raised
    | out => cases raised
  · exact .inr (.inr (.inr (.inr (.inl ⟨hi, x, rest, offered, outOfRange, rfl⟩))))

/-! ### Precision -/

/-- A fetch succeeds exactly when the counter names a mapped cell (R101, R102). -/
theorem fetch_ok_iff {s : State} : (∃ v, fetch s = .ok v) ↔ s.pcInRange ∧ s.mem.read s.pc.toNat ≠ none := by
  rcases fetch_cases s with ⟨outOfRange, hf⟩ | ⟨h0, h1, unmapped, hf⟩ | ⟨h0, h1, v, mapped, hf⟩
  · simp only [hf, State.pcInRange]
    constructor
    · rintro ⟨v, hv⟩; cases hv
    · omega
  · simp [hf, unmapped]
  · simp [hf, mapped, State.pcInRange, h0, h1]

/-- Settles O43: a fault of the check or the fetch is raised in the state itself; one of Execute in the advanced state,
with an INP's integer consumed. -/
theorem faultsArePrecise : Obligations.FaultsArePrecise := by
  unfold Obligations.FaultsArePrecise
  intro s t hs h faulted
  rw [← fetch_ok_iff]
  rcases step_cases h with ⟨inactive, -⟩ | ⟨-, f, failed, rfl⟩ | ⟨-, -, v, fetched, hx⟩
  · exact absurd hs inactive
  · have notFetched : ¬ ∃ v, fetch s = .ok v := by simp [failed]
    exact ⟨rfl, fun fetched => absurd fetched notFetched, fun _ => rfl, .inl rfl⟩
  · have succeeded : ∃ v, fetch s = .ok v := ⟨v, fetched⟩
    rcases exec_faulted_cases hs hx faulted with ⟨-, f, -, rfl⟩ | ⟨-, x, rest, offered, -, rfl⟩
    · exact ⟨rfl, fun _ => rfl, fun failed => absurd succeeded failed, .inl rfl⟩
    · exact ⟨rfl, fun _ => rfl, fun failed => absurd succeeded failed, .inr ⟨x, rfl, offered⟩⟩

/-! ### Waiting for input -/

/-- Settles O23: the delivered integer is all the channel offers, and INP takes it. -/
theorem waitingInputResumesOnDelivery : Obligations.WaitingInputResumesOnDelivery := by
  unfold Obligations.WaitingInputResumesOnDelivery
  intro s r hs empty
  have active : (s.deliver r.val).Active := hs
  have offered : (s.deliver r.val).inp = (r.val : Int) :: [] := by simp [empty]
  have taken : ({ s.deliver r.val with inp := [] } : State) = s := by rw [← empty]; rfl
  refine ⟨exec_inp_of_empty empty, ?_⟩
  rw [exec_inp_of_value active offered, ← wroteFlagged_withInp, taken]

end Sys2Proof.Machine
end

section
/-! Run control and hazards (70_reset_and_hazards.md): what the host sees (R202), and how long a selection of `B` lasts
(R207). -/

namespace Sys2Proof.Machine

/-- The write-back of a completed cycle consumes a selection; USEB alone sets one (R25, R108). -/
theorem ExecuteFrame.writeBack_U {i : Instr} {v r : Value} {s u : State} (frame : ExecuteFrame i v s r u) :
    (u.writeBack s.U (decide (i = .useb)) r).U = decide (i = .useb) := by
  rw [State.writeBack_U, frame.U]
  by_cases useb : i = .useb
  · simp [useb]
  · cases hU : s.U <;> simp [useb]

/-- Settles O40: an instruction that neither faults nor waits ends by its write-back. -/
theorem selectionLastsOneInstruction : Obligations.SelectionLastsOneInstruction := by
  unfold Obligations.SelectionLastsOneInstruction
  intro i s t _ h notFaulted notWaiting
  rcases exec_cases h with ⟨r, u, frame, rfl⟩ | ⟨-, f, -, rfl⟩ | ⟨-, x, rest, -, -, rfl⟩ | ⟨hi, empty, -⟩
  · have selected : (u.writeBack s.U (decide (i = .useb)) r).U = decide (i = .useb) := frame.writeBack_U
    rw [State.settleHalt_U, selected, decide_eq_true_iff]
  · exact absurd rfl notFaulted
  · exact absurd rfl notFaulted
  · exact absurd ⟨hi, empty⟩ notWaiting

/-- Settles O28: each status opens its own part of the view. -/
theorem hostSeesRegistersOnlyWhenHalted : Obligations.HostSeesRegistersOnlyWhenHalted := by
  unfold Obligations.HostSeesRegistersOnlyWhenHalted
  refine fun s => ⟨fun running => ?_, fun faulted => ?_, fun halted => ?_⟩
  · simp [State.hostView, running]
  · simp [State.hostView, faulted]
  · simp [State.hostView, halted]

end Sys2Proof.Machine
end
